-- ==== Sys2Proof/Config.lean ====
section
/-! DEFINITION. The parameters the spec leaves to the implementation, at the spec's defaults (R10), and the
free values: what the spec calls "unspecified" after reset (R20, R260, U3). -/

namespace Sys2Proof

/-- `CAP`, the capacity of the bit queue in cells: the default of R10. It is the capacity of the machine
that `State.reset` describes; every operation takes the capacity from the state. DESIGN CHOICE, log entry 2. -/
def Config.cap : Nat := 200

/-- The least capacity R10 admits. -/
def Config.minCap : Nat := 36

/-- `TSW`, the width of a timestamp in bits: the default of R10, and the width of the words of R107 and of
spec/opcode_table.json. It is the width of the machine that `State.reset` describes; every operation takes the width from
the state. DESIGN CHOICE, log entry 1. -/
def Config.tsw : Nat := 32

/-! The free values of log entries 3 and 4. The first argument numbers the reset that draws the value: "drawn
afresh at each reset, under no law" (R260). None has a body that a proof could see. -/

/-- `last_edge_time` after the `n`-th reset, for the width `tsw` (R260). -/
opaque Config.unspecLastEdgeTime : Nat → (tsw : Nat) → BitVec tsw

/-- `cap_start` after the `n`-th reset, for the width `tsw` (R260). -/
opaque Config.unspecCapStart : Nat → (tsw : Nat) → BitVec tsw

/-- `slot_id` after the `n`-th reset (R260). -/
opaque Config.unspecSlotId : Nat → BitVec 7

/-- `slot_temp` after the `n`-th reset (R260). -/
opaque Config.unspecSlotTemp : Nat → BitVec 19

/-- `slot_unit` after the `n`-th reset, as the bit of R25 (R260). -/
opaque Config.unspecSlotUnit : Nat → Bool

/-- `q_mem[i]` after the `n`-th reset (R260). -/
opaque Config.unspecQueueCell : Nat → Nat → Bool

/-- `frame[i]` after the `n`-th reset (R260). -/
opaque Config.unspecFrameCell : Nat → Nat → Bool

end Sys2Proof
end

