-- ==== Sys2Proof/Word.lean ====
section
/-! DEFINITION. The words of the block: pin levels, temperature units, command words and frames. -/

namespace Sys2Proof

/-- A command word of `4 + TSW` bits, for any `TSW` (R105). -/
abbrev CommandWord (tsw : Nat) := BitVec (tsw + 4)

/-- A whole frame as one 36-bit number, `frame[0]` the most significant bit (R70, R96). -/
abbrev Frame := BitVec 36

/-- The pin level after an edge (R108). -/
inductive Level where
  | low
  | high
deriving DecidableEq, Repr

/-- The level a bit stands for: 1 is HIGH (R108). -/
def Level.ofBit : Bool → Level
  | false => .low
  | true => .high

/-- The bit of a level (R108). -/
def Level.toBit : Level → Bool
  | .low => false
  | .high => true

/-- The unit of a temperature (R25). -/
inductive Scale where
  | fahrenheit
  | celsius
deriving DecidableEq, Repr

/-- The unit a bit stands for: 0 is Fahrenheit, 1 is Celsius (R25). -/
def Scale.ofBit : Bool → Scale
  | false => .fahrenheit
  | true => .celsius

/-- The bit of a unit (R25). -/
def Scale.toBit : Scale → Bool
  | .fahrenheit => false
  | .celsius => true

end Sys2Proof
end

