-- ==== Sys2Proof/Syntax.lean ====
section
/-! DEFINITION. The operations of the block (R7): one constructor per row of spec/opcode_table.json. -/

namespace Sys2Proof

/-- The seven operations of R7 with the operands of R106 and R108. A time is a count of microseconds of one clock (R13), a
mathematical integer (R11); `Instr.wellFormed` says which are operations of a machine of a given `TSW`. Log entry 1. -/
inductive Instr where
  /-- NOP (R228). -/
  | nop
  /-- `EDGE level, ts` (R120): the pin level after the edge and the clock at the edge. -/
  | edge (level : Level) (ts : Nat)
  /-- `DSTEP now` (R155): the clock at this step. -/
  | dstep (now : Nat)
  /-- STATUS (R222). -/
  | status
  /-- TAKE (R224). -/
  | take
  /-- `CONFIG u` (R226): 1 is Celsius. -/
  | config (celsius : Bool)
  /-- RESET (R229). -/
  | reset
deriving DecidableEq, Repr

end Sys2Proof
end

