-- ==== Sys2Proof/WellFormed.lean ====
section
/-! DEFINITION. What is well formed: which command words are operations, by the match and mask table of R107,
and why a word is not one (R110); and which operations a machine of a given timestamp width has (R111). -/

namespace Sys2Proof

/-- Why a command word is invalid (R110). The order in which two reasons are told apart is the model's: log entry 7. -/
inductive Invalid where
  /-- `opc = 110`. -/
  | reservedOpcode
  /-- `a` is not 0 in a word whose `a` must be 0. -/
  | argumentNotZero
  /-- `t` is not 0 in a word whose `t` must be 0. -/
  | timeNotZero
  /-- A number that is no word of `4 + TSW` bits (R105). -/
  | tooLong
deriving DecidableEq, Repr

/-- One row of the table of R107: a word `w` is the operation iff `w and mask = pattern`. -/
structure OpcodeRow where
  mnemonic : String
  pattern : CommandWord 32
  mask : CommandWord 32
deriving DecidableEq, Repr

/-- The word is the row's operation (R107). -/
def OpcodeRow.accepts (r : OpcodeRow) (cw : CommandWord 32) : Bool := cw &&& r.mask == r.pattern

/-- The match and mask values of R107, which are those of `TSW = 32`. -/
def opcodeTable : List OpcodeRow :=
  [⟨"NOP", 0x000000000, 0xFFFFFFFFF⟩,
   ⟨"EDGE", 0x200000000, 0xE00000000⟩,
   ⟨"DSTEP", 0x400000000, 0xF00000000⟩,
   ⟨"STATUS", 0x600000000, 0xFFFFFFFFF⟩,
   ⟨"TAKE", 0x800000000, 0xFFFFFFFFF⟩,
   ⟨"CONFIG", 0xA00000000, 0xEFFFFFFFF⟩,
   ⟨"RESET", 0xE00000000, 0xFFFFFFFFF⟩]

/-- A command word for `TSW = 32` is well formed when a row of R107 accepts it. -/
def CommandWord.wellFormed (cw : CommandWord 32) : Bool := opcodeTable.any (·.accepts cw)

/-- The operations of a machine of timestamp width `tsw`: those whose times are `tsw`-bit values, every one of which
is legal (R111). -/
def Instr.wellFormed (tsw : Nat) : Instr → Bool
  | .nop => true
  | .edge _ ts => decide (ts < 2 ^ tsw)
  | .dstep now => decide (now < 2 ^ tsw)
  | .status => true
  | .take => true
  | .config _ => true
  | .reset => true

/-- The operation's mnemonic, as the table of R107 and spec/opcode_table.json write it. -/
def Instr.mnemonic : Instr → String
  | .nop => "NOP"
  | .edge _ _ => "EDGE"
  | .dstep _ => "DSTEP"
  | .status => "STATUS"
  | .take => "TAKE"
  | .config _ => "CONFIG"
  | .reset => "RESET"

end Sys2Proof
end

