-- ==== Sys2Proof/Decode.lean ====
section
/-! DEFINITION. The decoder of command words by their fields (R105, R106, R108, R110), and the encoder, for every timestamp
width `w`. -/

namespace Sys2Proof

/-! The fields of a command word (R105). -/

/-- `opc = CW[TSW+3 : TSW+1]` (R105). -/
def fieldOpc {w : Nat} (cw : CommandWord w) : BitVec 3 := cw.extractLsb' (w + 1) 3

/-- `a = CW[TSW]` (R105). -/
def fieldA {w : Nat} (cw : CommandWord w) : Bool := cw.getLsbD w

/-- `t = CW[TSW-1 : 0]` (R105). -/
def fieldT {w : Nat} (cw : CommandWord w) : BitVec w := cw.extractLsb' 0 w

/-- An operation whose `a` must be 0 (R106). -/
def requireArgZero (a : Bool) (i : Instr) : Except Invalid Instr :=
  if a then .error .argumentNotZero else .ok i

/-- An operation whose `t` must be 0 (R106). -/
def requireTimeZero (t : Nat) (i : Instr) : Except Invalid Instr :=
  if t = 0 then .ok i else .error .timeNotZero

/-- An operation whose `a` and `t` must both be 0 (R106). -/
def requireBothZero (a : Bool) (t : Nat) (i : Instr) : Except Invalid Instr :=
  if a then .error .argumentNotZero else requireTimeZero t i

/-- The operation of the fields `opc`, `a`, `t`, or the reason there is none (R106, R108, R110). -/
def decodeFields (opc : Nat) (a : Bool) (t : Nat) : Except Invalid Instr :=
  match opc with
  | 0 => requireBothZero a t .nop
  | 1 => .ok (.edge (Level.ofBit a) t)
  | 2 => requireArgZero a (.dstep t)
  | 3 => requireBothZero a t .status
  | 4 => requireBothZero a t .take
  | 5 => requireTimeZero t (.config a)
  | 7 => requireBothZero a t .reset
  | _ => .error .reservedOpcode

/-- The decoder: total, one of the seven operations or the reason the word is invalid (R105, R106, R110). -/
def decode {w : Nat} (cw : CommandWord w) : Except Invalid Instr :=
  decodeFields (fieldOpc cw).toNat (fieldA cw) (fieldT cw).toNat

/-- The command word `{opc, a, t}` (R105). -/
def packWord {w : Nat} (opc : BitVec 3) (a : Bool) (t : BitVec w) : CommandWord w :=
  ((opc ++ BitVec.ofBool a) ++ t).setWidth (w + 4)

/-- The encoder (R106). -/
def encode (w : Nat) : Instr → CommandWord w
  | .nop => packWord 0b000 false 0#w
  | .edge level ts => packWord 0b001 level.toBit (BitVec.ofNat w ts)
  | .dstep now => packWord 0b010 false (BitVec.ofNat w now)
  | .status => packWord 0b011 false 0#w
  | .take => packWord 0b100 false 0#w
  | .config celsius => packWord 0b101 celsius 0#w
  | .reset => packWord 0b111 false 0#w

/-- The operation of a number as a word of `w + 4` bits; a number that is no such word is invalid (R105). -/
def decodeNumber (w n : Nat) : Except Invalid Instr :=
  if n < 2 ^ (w + 4) then decode (BitVec.ofNat (w + 4) n) else .error .tooLong

/-- The operation the decoder reads from a word numbered as spec/opcode_table.json numbers it, which has `TSW = 32`. -/
def decodeTableWord (nbits n : Nat) : Option Instr := (decodeNumber Config.tsw (n % 2 ^ nbits)).toOption

end Sys2Proof
end

