-- ==== Sys2Proof/Machine/Protocol.lean ====
section
/-! DEFINITION. The parameters the source fixes (R9). -/

namespace Sys2Proof.Machine

/-- `T_MIN`: the coarse window's exclusive lower bound, in microseconds. -/
def tMin : Nat := 400
/-- `T_MAX`: the coarse window's exclusive upper bound. -/
def tMax : Nat := 1400
/-- `SH_LO`, the short-HIGH window. -/
def shLo : Nat := 400
/-- `SH_HI`. -/
def shHi : Nat := 700
/-- `LG_LO`, the long-HIGH window. -/
def lgLo : Nat := 1100
/-- `LG_HI`; values of 1400 and above are cut off by `T_MAX` (C1). -/
def lgHi : Nat := 1500
/-- `GAP_LO`, the LOW-gap window. -/
def gapLo : Nat := 800
/-- `GAP_HI`. -/
def gapHi : Nat := 1200

/-- `PRE`, first bit first (R95). -/
def preamble : List Bool := [false, false, false, false, true, false, true, false]

/-- `PRE[p]` (R95). -/
def preambleBit (p : Fin 8) : Bool := preamble.getD p.val false

/-- `WINDOW_US`: the capture window, one second. -/
def windowUs : Nat := 1000000
/-- `CSUM_SEED`. -/
def csumSeed : Nat := 0x0A
/-- `PARITY_IDX`: the frame bit left out of the checksum sum. -/
def parityIdx : Nat := 11

end Sys2Proof.Machine
end

