-- ==== Sys2Proof/Machine/Checksum.lean ====
section
/-! DEFINITION. The bits and nibbles of a frame (R96) and the checksum over them (R190 to R194). -/

namespace Sys2Proof.Machine

/-- `F[i]`, in arrival order, as a number (R70, R96). -/
def frameBit (F : Frame) (i : Nat) : Nat := (F.getMsbD i).toNat

/-- The plain value `nv(n)` of nibble `n` (R96). -/
def nibbleValue (F : Frame) (n : Nat) : Nat :=
  8 * frameBit F (4 * n) + 4 * frameBit F (4 * n + 1) + 2 * frameBit F (4 * n + 2) + frameBit F (4 * n + 3)

/-- A bit as it enters the checksum sum: the parity position is left out (R191). -/
def summedBit (F : Frame) (i : Nat) : Nat := if i = parityIdx then 0 else frameBit F i

/-- The checksum value `cv(n)` of payload nibble `n` (R191). -/
def checksumValue (F : Frame) (n : Nat) : Nat :=
  8 * summedBit F (4 * n) + 4 * summedBit F (4 * n + 1) + 2 * summedBit F (4 * n + 2) + summedBit F (4 * n + 3)

/-- `cv(0) + ... + cv(n-1)`. -/
def checksumTotal (F : Frame) : Nat → Nat
  | 0 => 0
  | n + 1 => checksumTotal F n + checksumValue F n

/-- `acc` (R192). -/
def checksumAcc (F : Frame) : Nat := (csumSeed + checksumTotal F 8) % 16

/-- `ck`, the plain value of nibble 8 (R193). -/
def checksumField (F : Frame) : Nat := nibbleValue F 8

/-- The verdict (R194). -/
def checksumOk (F : Frame) : Bool := checksumAcc F == checksumField F

/-- One round of the loop of R194's pseudocode: bit `i` into the 4-bit accumulator. -/
def checksumLoopStep (F : Frame) (acc i : Nat) : Nat :=
  if i ≠ parityIdx ∧ frameBit F i = 1 then (acc + 1 <<< (3 - i % 4)) % 16 else acc

/-- The loop of R194's pseudocode, over bits 0 to 31. -/
def checksumLoop (F : Frame) : Nat := (List.range 32).foldl (checksumLoopStep F) csumSeed

end Sys2Proof.Machine
end

