-- ==== Sys2Proof/Machine/State.lean ====
section
/-! DEFINITION. The state of the block: the seventeen elements of R20, and the model's own fields (log entries 1, 2,
3, 5, 6). -/

namespace Sys2Proof.Machine

/-- Where the decoder stands: looking for a preamble, or capturing a frame (R29). -/
inductive Mode where
  | search
  | capture
deriving DecidableEq, Repr

/-- The trace events of R251, in the order of their codes. -/
inductive TraceEvent where
  | eFirst | eDiscard | eShort | eLong | eAmbig | eBit0 | eBit1 | eNoBit
  | dIdle | dAdv | dMiss | dMatch | dWait | dFbit | dFrameOk | dFrameBad | dTimeout
deriving DecidableEq, Repr

/-- The responses: one bit from STATUS (R113), a 27-bit Reading word from TAKE (R114). -/
inductive Response where
  | status (pending : Bool)
  | reading (word : BitVec 27)
deriving DecidableEq, Repr

/-- A memory of one-bit cells (R60, R61): the cells written since reset, by rising index. A cell that is not
listed holds its unspecified reset value. Log entry 4. -/
abbrev Memory := List (Nat × Bool)

/-- The canonical form of a memory of `size` cells: indices strictly rising, all below `size`. -/
abbrev Memory.wf (size : Nat) (m : Memory) : Prop :=
  m.Pairwise (fun p q => p.1 < q.1) ∧ ∀ p ∈ m, p.1 < size

/-- The whole state. -/
@[ext]
structure State where
  /-- A first edge has been seen (R23). -/
  lastEdgeValid : Bool
  /-- The time of the most recent edge (R23), below `2^tsw` (`State.timesFit`). -/
  lastEdgeTime : Nat
  /-- A short HIGH pulse is pending (R31). -/
  shortPending : Bool
  /-- A long HIGH pulse is pending (R31). -/
  longPending : Bool
  /-- The storage of the bit queue (R60). -/
  qMem : Memory
  /-- The write cursor (R140). -/
  qWr : Nat
  /-- The read cursor (R140). -/
  qRd : Nat
  /-- SEARCH or CAPTURE (R29). -/
  mode : Mode
  /-- How many preamble bits have matched (R28). -/
  progress : Fin 8
  /-- The frame buffer (R24, R61). -/
  frame : Memory
  /-- The fill count of the frame (R24). -/
  count : Fin 36
  /-- The start of the capture window (R30), below `2^tsw` (`State.timesFit`). -/
  capStart : Nat
  /-- The unit to publish in: 1 is Celsius (R33). -/
  useCelsius : Bool
  /-- The sensor ID of the reading register (R25). -/
  slotId : BitVec 7
  /-- The temperature of the reading register, signed thousandths of a degree (R25). -/
  slotTemp : BitVec 19
  /-- The unit of the reading register (R25). -/
  slotUnit : Scale
  /-- One unconsumed Reading is present (R33). -/
  readingPending : Bool
  /-- The model's own: the parameter `CAP` of this machine (R10), which no operation writes (R33). Log entry 2. -/
  cap : Nat
  /-- The model's own: the parameter `TSW` of this machine (R10), which no operation writes (R33). Log entry 1. -/
  tsw : Nat
  /-- The model's own: which reset drew the unspecified values in force. Log entry 3. -/
  resets : Nat
  /-- The model's own: the command words of the operations the environment has yet to apply (R7), oldest first, as
  numbers. Log entry 5. -/
  inbox : List Nat
  /-- The model's own: the response of the last operation (R7). Log entry 6. -/
  response : Option Response
  /-- The model's own: the trace event of the last operation (R251). Log entry 6. -/
  trace : Option TraceEvent
deriving DecidableEq, Repr

/-- No operation traps, faults, halts or fails in any state for any operands (R245): there is no fault. -/
inductive Fault
deriving DecidableEq, Repr

/-- Why a step has no meaning. -/
inductive Refusal where
  /-- Raised by an arm of `exec` whose operation has no meaning yet; safe. No arm raises it. -/
  | notModelled (mnemonic : String)
  /-- Raised by `step` when the next command word is invalid (R110): a failure of the encoding, not an input of
  the block (R245); safe. -/
  | invalidCommandWord (why : Invalid)
deriving DecidableEq, Repr

/-- The block right after its `n`-th reset (R260), for timestamp width `tsw` and capacity `cap`. -/
def State.afterReset (tsw cap n : Nat) : State where
  lastEdgeValid := false
  lastEdgeTime := (Config.unspecLastEdgeTime n tsw).toNat
  shortPending := false
  longPending := false
  qMem := []
  qWr := 0
  qRd := 0
  mode := .search
  progress := 0
  frame := []
  count := 0
  capStart := (Config.unspecCapStart n tsw).toNat
  useCelsius := false
  slotId := Config.unspecSlotId n
  slotTemp := Config.unspecSlotTemp n
  slotUnit := Scale.ofBit (Config.unspecSlotUnit n)
  readingPending := false
  cap := cap
  tsw := tsw
  resets := n
  inbox := []
  response := none
  trace := none

/-- The start of every run (R260). -/
def State.reset : State := State.afterReset Config.tsw Config.cap 0

end Sys2Proof.Machine
end

