-- ==== Sys2Proof/Machine/Ops.lean ====
section
/-! DEFINITION. The named operations over the state: the two memories, the bit queue and the updates that the
meanings are made of. The block takes no exception (R250), so there is no exception entry and no return here. -/

namespace Sys2Proof.Machine

/-! Memories of one-bit cells. -/

/-- The written value of cell `i`, if it has been written since reset. -/
def Memory.lookup : Memory → Nat → Option Bool
  | [], _ => none
  | (j, b) :: m, i => if j = i then some b else Memory.lookup m i

/-- Write `b` to cell `i`, keeping the canonical form. -/
def Memory.write : Memory → Nat → Bool → Memory
  | [], i, b => [(i, b)]
  | (j, c) :: m, i, b =>
    if i < j then (i, b) :: (j, c) :: m
    else if i = j then (i, b) :: m
    else (j, c) :: Memory.write m i b

/-- `QRead(i)` (R12): an unwritten cell holds its unspecified reset value (R260). -/
def State.qRead (s : State) (i : Nat) : Bool :=
  (s.qMem.lookup i).getD (Config.unspecQueueCell s.resets i)

/-- `FRead(i)` (R12): an unwritten cell holds its unspecified reset value (R260). -/
def State.fRead (s : State) (i : Nat) : Bool :=
  (s.frame.lookup i).getD (Config.unspecFrameCell s.resets i)

/-- `FWrite(i, b)` (R12). -/
def State.fWrite (s : State) (i : Nat) (b : Bool) : State := { s with frame := s.frame.write i b }

/-- The 36 bits `frame[0..35]` as one number, `frame[0]` most significant (R70). -/
def State.frameImage (s : State) : Frame :=
  (BitVec.ofBoolListBE ((List.range 36).map s.fRead)).setWidth 36

/-! The bit queue (R140). -/

/-- The step of a cursor, `(c + 1) mod CAP` (R71). -/
def State.nextCursor (s : State) (c : Nat) : Nat := (c + 1) % s.cap

/-- The pending count `(q_wr - q_rd) mod CAP` (R140). -/
def State.pend (s : State) : Nat := (s.qWr + s.cap - s.qRd) % s.cap

/-- `hasPending()` (R144). -/
def State.hasPending (s : State) : Bool := s.qRd != s.qWr

/-- `push(b)` (R141). -/
def State.push (s : State) (b : Bool) : State :=
  { s with qMem := s.qMem.write s.qWr b, qWr := s.nextCursor s.qWr }

/-- The cursor step of `pop()` (R143). -/
def State.advanceRead (s : State) : State := { s with qRd := s.nextCursor s.qRd }

/-- `pop()` (R143): the bit read and the state after. On an empty queue there is no pop, and no bit (R147, U1). -/
def State.pop (s : State) : Option (Bool × State) :=
  if s.hasPending then some (s.qRead s.qRd, s.advanceRead) else none

/-! Updates of the other elements. -/

/-- The outputs of an operation: `respond` and `trace` of R12. -/
def State.emit (s : State) (r : Option Response) (e : Option TraceEvent) : State :=
  { s with response := r, trace := e }

/-- `last_edge_time <- ts`, which is valid from then on (R121, R129). -/
def State.latchEdge (s : State) (ts : Nat) : State :=
  { s with lastEdgeValid := true, lastEdgeTime := ts }

/-- Both pending-pulse flags are written together (R32). -/
def State.setPulse (s : State) (short long : Bool) : State :=
  { s with shortPending := short, longPending := long }

/-- `progress <- p` (R157, R159). -/
def State.setProgress (s : State) (p : Fin 8) : State := { s with progress := p }

/-- The match opens the capture window at `now` (R158). -/
def State.openCapture (s : State) (now : Nat) : State :=
  { s with progress := 0, mode := .capture, count := 0, capStart := now }

/-- `count <- c` (R174). -/
def State.setCount (s : State) (c : Fin 36) : State := { s with count := c }

/-- The capture ends, whatever the verdict (R175, R176). -/
def State.closeCapture (s : State) : State := { s with mode := .search, count := 0 }

/-- The reading register is written and the pending flag set (R208). -/
def State.writeSlot (s : State) (id : BitVec 7) (temp : BitVec 19) (unit : Scale) : State :=
  { s with slotId := id, slotTemp := temp, slotUnit := unit, readingPending := true }

/-- `reading_pending <- 0` (R224). -/
def State.clearPending (s : State) : State := { s with readingPending := false }

/-- `use_celsius <- u` (R226). -/
def State.setUseCelsius (s : State) (u : Bool) : State := { s with useCelsius := u }

/-- RESET (R260): every element at its reset value, the unspecified ones drawn afresh. The capacity, the
width of the timestamps and the operations still to be applied are not elements of the block and stay. -/
def State.resetBlock (s : State) : State :=
  { State.afterReset s.tsw s.cap (s.resets + 1) with inbox := s.inbox }

/-- The environment has these operations still to be applied (R7). -/
def State.setInbox (s : State) (ws : List Nat) : State := { s with inbox := ws }

end Sys2Proof.Machine
end

