-- ==== Sys2Proof/Machine/Field.lean ====
section
/-! DEFINITION. The field decoder and publishing (R200 to R208). -/

namespace Sys2Proof.Machine

/-- The sensor ID: bits 4 to 10, earlier bit more significant (R201). -/
def sensorId (F : Frame) : Nat :=
  64 * frameBit F 4 + 32 * frameBit F 5 + 16 * frameBit F 6 + 8 * frameBit F 7
    + 4 * frameBit F 8 + 2 * frameBit F 9 + frameBit F 10

/-- `tF`, thousandths of a degree Fahrenheit, from the digits of nibbles 3 to 7 (R203, R204). -/
def tempFahrenheit (F : Frame) : Nat :=
  10000 * nibbleValue F 3 + 1000 * nibbleValue F 4 + 100 * nibbleValue F 5 + 10 * nibbleValue F 6
    + nibbleValue F 7

/-- `tC = floor((10*(tF - 32000) + 9) / 18)` (R206); `/` of integers by a positive number rounds down. -/
def celsiusOf (tF : Nat) : Int := (10 * ((tF : Int) - 32000) + 9) / 18

/-- The published temperature (R205). -/
def publishedTemp (useCelsius : Bool) (F : Frame) : Int :=
  if useCelsius then celsiusOf (tempFahrenheit F) else tempFahrenheit F

/-- `publish(F)` (R208). -/
def State.publish (s : State) (F : Frame) : State :=
  s.writeSlot (BitVec.ofNat 7 (sensorId F)) (BitVec.ofInt 19 (publishedTemp s.useCelsius F))
    (Scale.ofBit s.useCelsius)

end Sys2Proof.Machine
end

