-- ==== Sys2Proof/Machine/Operands.lean ====
section
/-! DEFINITION. Times and windows: the subtraction of timestamps, the intervals EDGE and DSTEP compute from
their operand, and the window comparator. -/

namespace Sys2Proof.Machine

/-- `(later - earlier) mod 2^TSW`, the unsigned time from `earlier` to `later` on a clock of `tsw` bits (R122, R178); `mod`
gives the least residue that is not negative (R11). -/
def timeSince (tsw : Nat) (later earlier : Nat) : Nat := (((later : Int) - earlier) % ((2 ^ tsw : Nat) : Int)).toNat

/-- `in_window(lo, d, hi)`: both comparisons strict (R123). -/
def inWindow (lo d hi : Nat) : Bool := decide (lo < d) && decide (d < hi)

/-- The interval that ends at an edge stamped `ts` (R122). -/
def State.delta (s : State) (ts : Nat) : Nat := timeSince s.tsw ts s.lastEdgeTime

/-- The time since the capture window opened (R178). -/
def State.elapsed (s : State) (now : Nat) : Nat := timeSince s.tsw now s.capStart

/-- The capture window has closed: from exactly one second on (R176). -/
def State.windowElapsed (s : State) (now : Nat) : Bool := decide (windowUs ≤ s.elapsed now)

end Sys2Proof.Machine
end

