-- ==== Sys2Proof/Machine/Decoder.lean ====
section
/-! DEFINITION. DSTEP: one iteration of the polling-context pipeline, the preamble recognizer in SEARCH (R156) and
the frame assembler in CAPTURE (R170). -/

namespace Sys2Proof.Machine

/-- The recognizer consumes the popped bit `b` (R157 to R159). -/
def recognize (now : Nat) (b : Bool) (s : State) : State :=
  if b = preambleBit s.progress then
    if s.progress = 7 then (s.openCapture now).emit none (some .dMatch)
    else (s.setProgress (s.progress + 1)).emit none (some .dAdv)
  else (s.setProgress 0).emit none (some .dMiss)

/-- DSTEP in SEARCH mode (R156). -/
def searchStep (now : Nat) (s : State) : State :=
  match s.pop with
  | some (b, s') => recognize now b s'
  | none => s.emit none (some .dIdle)

/-- A complete frame: the capture ends, and the frame is published if its checksum holds (R175). -/
def completeFrame (s : State) : State :=
  if checksumOk s.frameImage then (s.closeCapture.publish s.frameImage).emit none (some .dFrameOk)
  else s.closeCapture.emit none (some .dFrameBad)

/-- The window has elapsed: the frame is abandoned (R176). -/
def abandonFrame (s : State) : State := s.closeCapture.emit none (some .dTimeout)

/-- The capture consumes the popped bit `b`: complete, then timeout, then continue (R173 to R176). -/
def assemble (now : Nat) (b : Bool) (s : State) : State :=
  let s' := s.fWrite s.count b
  if s.count = 35 then completeFrame s'
  else if s.windowElapsed now then abandonFrame s'
  else (s'.setCount (s.count + 1)).emit none (some .dFbit)

/-- DSTEP in CAPTURE mode (R170). -/
def captureStep (now : Nat) (s : State) : State :=
  match s.pop with
  | some (b, s') => assemble now b s'
  | none => if s.windowElapsed now then abandonFrame s else s.emit none (some .dWait)

/-- One iteration of the pipeline, by mode (R155). -/
def decoderStep (now : Nat) (s : State) : State :=
  match s.mode with
  | .search => searchStep now s
  | .capture => captureStep now s

/-- `DSTEP now` (R155). -/
def execDstep (now : Nat) (s : State) : Host.Outcome State Fault Refusal := .next (decoderStep now s)

end Sys2Proof.Machine
end

