-- ==== Sys2Proof/Machine/Flags.lean ====
section
/-! DEFINITION. The classes of an interval that decide the pending-pulse flags and the emitted bit (R92). -/

namespace Sys2Proof.Machine

/-- Inside the coarse validity window (R124). -/
def inCoarse (d : Nat) : Bool := inWindow tMin d tMax

/-- A short HIGH pulse (R125). -/
def isShort (d : Nat) : Bool := inWindow shLo d shHi

/-- A long HIGH pulse (R126). -/
def isLong (d : Nat) : Bool := inWindow lgLo d lgHi

/-- An inter-pulse LOW gap (R128). -/
def isGap (d : Nat) : Bool := inWindow gapLo d gapHi

end Sys2Proof.Machine
end

