-- ==== Sys2Proof/Machine/Edge.lean ====
section
/-! DEFINITION. EDGE: the pulse-width edge classifier (R120). -/

namespace Sys2Proof.Machine

/-- A falling edge that ends a HIGH interval of `d` microseconds, inside the coarse window (R125 to R127). -/
def fallingEdge (d : Nat) (s : State) : State :=
  if isShort d then (s.setPulse true false).emit none (some .eShort)
  else if isLong d then (s.setPulse false true).emit none (some .eLong)
  else (s.setPulse false false).emit none (some .eAmbig)

/-- A rising edge that ends a LOW interval of `d` microseconds, inside the coarse window (R128). -/
def risingEdge (d : Nat) (s : State) : State :=
  if isGap d && s.longPending then ((s.push false).setPulse false false).emit none (some .eBit0)
  else if isGap d && s.shortPending then ((s.push true).setPulse false false).emit none (some .eBit1)
  else (s.setPulse false false).emit none (some .eNoBit)

/-- An edge whose interval is outside the coarse window (R124). -/
def discardEdge (s : State) : State := (s.setPulse false false).emit none (some .eDiscard)

/-- An edge that has an edge before it, an interval of `d` microseconds ago (R122 to R128). -/
def classifyEdge (level : Level) (d : Nat) (s : State) : State :=
  if inCoarse d then
    match level with
    | .low => fallingEdge d s
    | .high => risingEdge d s
  else discardEdge s

/-- The state after an EDGE (R120). -/
def edgeStep (level : Level) (ts : Nat) (s : State) : State :=
  if s.lastEdgeValid then (classifyEdge level (s.delta ts) s).latchEdge ts
  else (s.latchEdge ts).emit none (some .eFirst)

/-- `EDGE level, ts` (R120). -/
def execEdge (level : Level) (ts : Nat) (s : State) : Host.Outcome State Fault Refusal := .next (edgeStep level ts s)

end Sys2Proof.Machine
end

