-- ==== Sys2Proof/Machine/HostOps.lean ====
section
/-! DEFINITION. The host operations: STATUS, TAKE, CONFIG, NOP, RESET (R222 to R229). -/

namespace Sys2Proof.Machine

/-- The response word of TAKE, `{unit, id[6:0], temp[18:0]}` (R114). -/
def readingWord (unit : Scale) (id : BitVec 7) (temp : BitVec 19) : BitVec 27 :=
  BitVec.ofBool unit.toBit ++ id ++ temp

/-- `NOP` (R228). -/
def execNop (s : State) : Host.Outcome State Fault Refusal := .next (s.emit none none)

/-- `STATUS` (R222). -/
def execStatus (s : State) : Host.Outcome State Fault Refusal :=
  .next (s.emit (some (.status s.readingPending)) none)

/-- `TAKE` (R224). -/
def execTake (s : State) : Host.Outcome State Fault Refusal :=
  .next (s.clearPending.emit (some (.reading (readingWord s.slotUnit s.slotId s.slotTemp))) none)

/-- `CONFIG u` (R226). -/
def execConfig (celsius : Bool) (s : State) : Host.Outcome State Fault Refusal :=
  .next ((s.setUseCelsius celsius).emit none none)

/-- `RESET` (R229, R260). -/
def execReset (s : State) : Host.Outcome State Fault Refusal := .next s.resetBlock

end Sys2Proof.Machine
end

