-- ==== Sys2Proof/Machine/Dispatch.lean ====
section
/-! DEFINITION. One arm per operation. -/

namespace Sys2Proof.Machine

/-- The operation `i` applied to the state `s` (R7). -/
def exec (i : Instr) (s : State) : Host.Outcome State Fault Refusal :=
  match i with
  | .nop => Sys2Proof.Machine.execNop s
  | .edge level ts => Sys2Proof.Machine.execEdge level ts s
  | .dstep now => Sys2Proof.Machine.execDstep now s
  | .status => Sys2Proof.Machine.execStatus s
  | .take => Sys2Proof.Machine.execTake s
  | .config celsius => Sys2Proof.Machine.execConfig celsius s
  | .reset => Sys2Proof.Machine.execReset s

end Sys2Proof.Machine
end

