-- ==== Sys2Proof/Machine/Step.lean ====
section
/-! DEFINITION. One step: the environment's next operation is applied (R7, R8). -/

namespace Sys2Proof.Machine

/-- The first word of `inbox` is taken out, decoded and applied; an invalid word is refused (R110); with no word
there the block is idle and nothing changes (R7, R257). -/
def step (s : State) : Host.Outcome State Fault Refusal :=
  match s.inbox with
  | [] => .next s
  | cw :: rest =>
    match decodeNumber s.tsw cw with
    | .ok i => exec i (s.setInbox rest)
    | .error why => .refused (.invalidCommandWord why)

/-- `s` with the word the low `nbits` bits of `n` spell as the next to be applied. Log entry 5. -/
def State.withFetchWord (s : State) (nbits n : Nat) : State := s.setInbox (n % 2 ^ nbits :: s.inbox)

end Sys2Proof.Machine
end

