-- ==== Sys2Proof/Machine/Events.lean ====
section
/-! DEFINITION. Trace events and their codes (R251), the five error conditions (R240), the two contexts (R8). -/

namespace Sys2Proof.Machine

/-- The code of a trace event (R251). -/
def traceCode : TraceEvent → Nat
  | .eFirst => 0
  | .eDiscard => 1
  | .eShort => 2
  | .eLong => 3
  | .eAmbig => 4
  | .eBit0 => 5
  | .eBit1 => 6
  | .eNoBit => 7
  | .dIdle => 8
  | .dAdv => 9
  | .dMiss => 10
  | .dMatch => 11
  | .dWait => 12
  | .dFbit => 13
  | .dFrameOk => 14
  | .dFrameBad => 15
  | .dTimeout => 16

/-- The five error conditions, all absorbed silently (R240). -/
inductive ErrorCondition where
  | noise
  | preamble
  | timeout
  | checksum
  | overrun
deriving DecidableEq, Repr

/-- The error condition a trace event reports (R240). No event reports an overrun (R246). -/
def errorOf : TraceEvent → Option ErrorCondition
  | .eFirst => none
  | .eDiscard => some .noise
  | .eShort => none
  | .eLong => none
  | .eAmbig => some .noise
  | .eBit0 => none
  | .eBit1 => none
  | .eNoBit => some .noise
  | .dIdle => none
  | .dAdv => none
  | .dMiss => some .preamble
  | .dMatch => none
  | .dWait => none
  | .dFbit => none
  | .dFrameOk => none
  | .dFrameBad => some .checksum
  | .dTimeout => some .timeout

/-- A push in this state is a lap: `ERR_OVERRUN` (R146, R246). -/
def State.pushLaps (s : State) : Bool := s.pend + 1 == s.cap

/-- The two agents (R8). -/
inductive Context where
  | interrupt
  | polling
deriving DecidableEq, Repr

/-- The context that applies an operation; RESET and NOP belong to neither (R8). -/
def contextOf : Instr → Option Context
  | .nop => none
  | .edge _ _ => some .interrupt
  | .dstep _ => some .polling
  | .status => some .polling
  | .take => some .polling
  | .config _ => some .polling
  | .reset => none

/-- The clock reading an operation carries (R254). -/
def clockOf : Instr → Option Nat
  | .nop => none
  | .edge _ ts => some ts
  | .dstep now => some now
  | .status => none
  | .take => none
  | .config _ => none
  | .reset => none

/-- The pin level an operation carries (R120). -/
def levelOf : Instr → Option Level
  | .nop => none
  | .edge level _ => some level
  | .dstep _ => none
  | .status => none
  | .take => none
  | .config _ => none
  | .reset => none

end Sys2Proof.Machine
end

