-- ==== Sys2Proof/Machine/Pseudo.lean ====
section
/-! DEFINITION. The pseudo-operations POLL, POLLB, PULSE, BIT1 and BIT0 (R117 to R119), sequences of operations, and
the textual form of an operation (R116). -/

namespace Sys2Proof.Machine

/-- A sequence of operations, one after another (R7), stopping where one has no next state. -/
def applyAll : List Instr → State → Host.Outcome State Fault Refusal
  | [], s => .next s
  | i :: is, s =>
    match exec i s with
    | .next t => applyAll is t
    | .fault r => .fault r
    | .refused r => .refused r

/-- The trace events of a sequence of operations (R251). -/
def tracesOf : List Instr → State → List TraceEvent
  | [], _ => []
  | i :: is, s =>
    match exec i s with
    | .next t => t.trace.toList ++ tracesOf is t
    | .fault _ => []
    | .refused _ => []

/-- The environment presents a sequence of operations to the block, after those already waiting (R7). -/
def State.present (s : State) (is : List Instr) : State :=
  s.setInbox (s.inbox ++ is.map (fun i => (encode s.tsw i).toNat))

/-! POLL and POLLB are no operations: they expand to operations, between any two of which an EDGE may fall (R80, R117,
R118). What the two contexts do while one runs is a list of turns. Log entry 21. -/

/-- What happens next while a poll runs. -/
inductive Turn where
  /-- The hardware boundary delivers an edge. -/
  | edge (level : Level) (ts : Nat)
  /-- The polling context goes on with the poll; `clock` is what a reading of the clock gives it. -/
  | host (clock : Nat)
deriving DecidableEq, Repr

/-- The end of a poll: the edges before the polling context goes on, then STATUS (R117, R118). -/
def statusOps : List Turn → Option (List Instr)
  | [] => none
  | .edge level ts :: turns => (statusOps turns).map (.edge level ts :: ·)
  | .host _ :: _ => some [.status]

/-- `POLL now` (R117): the operations it expands to from the state `s` under these turns, with the edges that fall between
them. The loop's test is made just before each DSTEP, on the state at that moment. None when the turns end first. -/
def pollOps (now : Nat) : List Turn → State → Option (List Instr)
  | [], _ => none
  | .edge level ts :: turns, s => (pollOps now turns (edgeStep level ts s)).map (.edge level ts :: ·)
  | .host _ :: turns, s =>
    if s.hasPending then (pollOps now turns (decoderStep now s)).map (.dstep now :: ·) else statusOps turns

/-- `POLLB` (R118): the operations it expands to from the state `s` under these turns, with the edges that fall between
them. Each DSTEP reads the clock, and the last is the one that leaves SEARCH with an empty queue. -/
def pollBlockingOps : List Turn → State → Option (List Instr)
  | [], _ => none
  | .edge level ts :: turns, s => (pollBlockingOps turns (edgeStep level ts s)).map (.edge level ts :: ·)
  | .host clock :: turns, s =>
    if (decoderStep clock s).mode = .search ∧ (decoderStep clock s).hasPending = false then
      (statusOps turns).map (.dstep clock :: ·)
    else (pollBlockingOps turns (decoderStep clock s)).map (.dstep clock :: ·)

/-- `POLL now` applied under these turns (R117, R231). -/
def execPoll (now : Nat) (turns : List Turn) (s : State) : Option (Host.Outcome State Fault Refusal) :=
  (pollOps now turns s).map (applyAll · s)

/-- `POLLB` applied under these turns (R118). -/
def execPollBlocking (turns : List Turn) (s : State) : Option (Host.Outcome State Fault Refusal) :=
  (pollBlockingOps turns s).map (applyAll · s)

/-! The pseudo-operations that write signals (R119). The rule writes `t0+hw` and does not say what the operand is past
`2^TSW`: here it is taken modulo `2^TSW`, as a clock of `tsw` bits gives it. DESIGN CHOICE, log entry 34. -/

/-- The reading `d` microseconds after `t` on a clock of `tsw` bits. DESIGN CHOICE, log entry 34. -/
def clockAfter (tsw : Nat) (t : Nat) (d : Nat) : Nat := (t + d) % 2 ^ tsw

/-- `PULSE hw, gap @t0` (R119); past `2^TSW` the times wrap: DESIGN CHOICE, log entry 34. -/
def pulse (tsw hw gap : Nat) (t0 : Nat) : List Instr :=
  [.edge .low (clockAfter tsw t0 hw), .edge .high (clockAfter tsw t0 (hw + gap))]

/-- The HIGH width that sends a bit (R91, R119). -/
def bitWidth : Bool → Nat
  | true => 550
  | false => 1300

/-- The LOW gap that ends a bit (R91, R119). -/
def bitGap : Nat := 1000

/-- `BIT1 @t0` and `BIT0 @t0` (R119). -/
def sendBit (tsw : Nat) (b : Bool) (t0 : Nat) : List Instr := pulse tsw (bitWidth b) bitGap t0

/-- Bits one after another, each where the one before ended (R119); past `2^TSW` the times wrap: DESIGN CHOICE, log
entry 34. -/
def sendBits (tsw : Nat) : List Bool → Nat → List Instr
  | [], _ => []
  | b :: bs, t0 => sendBit tsw b t0 ++ sendBits tsw bs (clockAfter tsw t0 (bitWidth b + bitGap))

/-- The 36 bits of a frame in arrival order (R70). -/
def frameBits (F : Frame) : List Bool := (List.range 36).map F.getMsbD

/-- A whole transmission: the preamble and a frame (R100). -/
def transmission (tsw : Nat) (F : Frame) (t0 : Nat) : List Instr := sendBits tsw (preamble ++ frameBits F) t0

/-- The textual form of an operation (R116). -/
def instrText : Instr → String
  | .nop => "NOP"
  | .edge .high ts => "EDGE H, " ++ toString ts
  | .edge .low ts => "EDGE L, " ++ toString ts
  | .dstep now => "DSTEP " ++ toString now
  | .status => "STATUS"
  | .take => "TAKE"
  | .config false => "CONFIG F"
  | .config true => "CONFIG C"
  | .reset => "RESET"

end Sys2Proof.Machine
end

