-- ==== Sys2Proof/Safety.lean ====
section
/-! DEFINITION. What claims speak of: the invariants of R38, the duties of the environment (R266 to R268), and what two
states that differ only in unspecified values have in common (R261). -/

namespace Sys2Proof.Machine

/-- The cursors stay inside the queue (R38 (a)) and the capacity is admissible (R10). -/
def State.cursorsLegal (s : State) : Prop := Config.minCap ≤ s.cap ∧ s.qWr < s.cap ∧ s.qRd < s.cap

/-- The width of the timestamps is admissible: the capture window fits (R10). -/
def State.clockLegal (s : State) : Prop := windowUs < 2 ^ s.tsw

/-- The two time latches hold values of the clock's width (R20). -/
def State.timesFit (s : State) : Prop := s.lastEdgeTime < 2 ^ s.tsw ∧ s.capStart < 2 ^ s.tsw

/-- The sequencing state is one of the 44 of R27 (R38 (b)); the ranges of `progress` and `count` are their types. -/
def State.sequencingLegal (s : State) : Prop :=
  (s.mode = .search → s.count = 0) ∧ (s.mode = .capture → s.progress = 0)

/-- The flags are not both set (R38 (c)). -/
def State.flagsExclusive (s : State) : Prop := ¬(s.shortPending = true ∧ s.longPending = true)

/-- Both memories are in canonical form, inside their index spaces (R62). -/
def State.memoriesCanonical (s : State) : Prop := s.qMem.wf s.cap ∧ s.frame.wf 36

/-- Every unread cell of the queue has been written since reset (R38 (d), R149). -/
def State.unreadWritten (s : State) : Prop :=
  ∀ k, k < s.pend → (s.qMem.lookup ((s.qRd + k) % s.cap)).isSome = true

/-- During a capture the frame bits below `count` have been written (R38 (e), R177). -/
def State.capturedWritten (s : State) : Prop :=
  s.mode = .capture → ∀ i, i < s.count.val → (s.frame.lookup i).isSome = true

/-- The invariants (a) to (e) of R38, with the widths of R10 and R20. -/
structure State.Inv (s : State) : Prop where
  clock : s.clockLegal
  times : s.timesFit
  cursors : s.cursorsLegal
  sequencing : s.sequencingLegal
  flags : s.flagsExclusive
  memories : s.memoriesCanonical
  unread : s.unreadWritten
  captured : s.capturedWritten

/-- No push of an EDGE in this state laps the read cursor (R150, R268). -/
def State.roomForBit (s : State) : Prop := s.pend + 2 ≤ s.cap

/-- All clock readings of a run are readings of one clock that does not run backward or wrap (R266). -/
def clockMonotonic (is : List Instr) : Prop := (is.filterMap clockOf).Pairwise (· ≤ ·)

/-- The levels of a run alternate (R267). -/
def levelsAlternate (is : List Instr) : Prop := (is.filterMap levelOf).IsChain (· ≠ ·)

/-- The number of bits that a sequence of operations pushes (R130, R251). -/
def bitsPushed (is : List Instr) (s : State) : Nat := (tracesOf is s).countP (fun e => e == .eBit0 || e == .eBit1)

/-- A turn of a poll in which an edge arrives. -/
def Turn.isEdge : Turn → Bool
  | .edge _ _ => true
  | .host _ => false

/-- The operation of a turn that lies before the end of a poll, for the time at which a DSTEP is applied when the clock
reads so much (R117, R118). -/
def Turn.op (time : Nat → Nat) : Turn → Instr
  | .edge level ts => .edge level ts
  | .host clock => .dstep (time clock)

/-- An operation is a DSTEP. -/
def isDstep : Instr → Bool
  | .nop => false
  | .edge _ _ => false
  | .dstep _ => true
  | .status => false
  | .take => false
  | .config _ => false
  | .reset => false

/-- Two states that agree but for values that are unspecified after reset: the last edge time while there has been
no edge, the start of the window while there is no capture, the reading register, and the draw itself (R261). -/
structure State.SameUpToUnspecified (s t : State) : Prop where
  lastEdgeValid : s.lastEdgeValid = t.lastEdgeValid
  lastEdgeTime : s.lastEdgeValid = true → s.lastEdgeTime = t.lastEdgeTime
  shortPending : s.shortPending = t.shortPending
  longPending : s.longPending = t.longPending
  qMem : s.qMem = t.qMem
  qWr : s.qWr = t.qWr
  qRd : s.qRd = t.qRd
  mode : s.mode = t.mode
  progress : s.progress = t.progress
  frame : s.frame = t.frame
  count : s.count = t.count
  capStart : s.mode = .capture → s.capStart = t.capStart
  useCelsius : s.useCelsius = t.useCelsius
  readingPending : s.readingPending = t.readingPending
  cap : s.cap = t.cap
  tsw : s.tsw = t.tsw
  inbox : s.inbox = t.inbox
  trace : s.trace = t.trace

/-- The block without the outputs of the last operation, which are no elements of it (R12, R251). -/
def State.quiet (s : State) : State := s.emit none none

/-- Bits pushed one after another (R141). -/
def State.pushAll (s : State) (bs : List Bool) : State := bs.foldl State.push s

/-- The bits that `n` pops return, as long as the queue is not empty (R143, R147). -/
def State.popBits : Nat → State → List Bool
  | 0, _ => []
  | n + 1, s =>
    match s.pop with
    | some (b, t) => b :: State.popBits n t
    | none => []

/-- The unread bits, oldest first (R140, R145). -/
def State.unread (s : State) : List Bool := s.popBits s.pend

/-- The elements EDGE owns have the same values (the Owner column of R20). -/
def State.sameInterruptOwned (s t : State) : Prop :=
  t.lastEdgeValid = s.lastEdgeValid ∧ t.lastEdgeTime = s.lastEdgeTime ∧ t.shortPending = s.shortPending ∧
  t.longPending = s.longPending ∧ t.qMem = s.qMem ∧ t.qWr = s.qWr

/-- The elements DSTEP owns have the same values, the pending flag apart (the Owner column of R20). -/
def State.sameDecoderOwned (s t : State) : Prop :=
  t.qRd = s.qRd ∧ t.mode = s.mode ∧ t.progress = s.progress ∧ t.frame = s.frame ∧ t.count = s.count ∧
  t.capStart = s.capStart ∧ t.slotId = s.slotId ∧ t.slotTemp = s.slotTemp ∧ t.slotUnit = s.slotUnit

/-- The model's own fields that no operation writes have the same values. -/
def State.sameSurroundings (s t : State) : Prop :=
  t.cap = s.cap ∧ t.tsw = s.tsw ∧ t.resets = s.resets ∧ t.inbox = s.inbox

end Sys2Proof.Machine
end

