-- ==== Sys2Proof/Certificates/Slice0/Obligations.lean ====
section
/-! DEFINITION. The statements for the provers. Where a statement compares whole states it does so through `quiet`, the
block without the outputs of the last operation; the outputs have statements of their own. -/

open Sys2Proof Sys2Proof.Machine

/-! Encoding. -/

/-- Decoding an encoded operation gives it back, with every operand, for every timestamp width (R105, R106, R108; the
encoding is the spec's own choice, D2). -/
def Obligations.DecodeEncode : Prop :=
  ∀ (w : Nat) (i : Instr), i.wellFormed w = true → decode (encode w i) = .ok i ∧
    decodeNumber w (encode w i).toNat = .ok i

/-- A word that decodes is the one word of its operation, whose times have the width of the word, for every timestamp
width: no bit of it is dropped (R105, R106; D2). -/
def Obligations.EncodeDecode : Prop :=
  ∀ (w : Nat) (cw : CommandWord w) (i : Instr), decode cw = .ok i → i.wellFormed w = true ∧ encode w i = cw

/-- The decoder by fields (R105, R106) and the match and mask table (R107) agree on every word of `TSW = 32` (D2). -/
def Obligations.DecodeMatchesOpcodeTable : Prop :=
  ∀ (cw : CommandWord 32) (r : OpcodeRow), r ∈ opcodeTable →
    ((∃ i, decode cw = .ok i ∧ i.mnemonic = r.mnemonic) ↔ cw &&& r.mask = r.pattern)

/-- For every timestamp width, the invalid words are exactly those of R110 (D21): opcode 110, `a` not 0 outside EDGE and
CONFIG, or `t` not 0 outside EDGE and DSTEP. -/
def Obligations.InvalidWords : Prop :=
  ∀ (w : Nat) (cw : CommandWord w),
    (∃ why, decode cw = .error why) ↔
      (cw.extractLsb' (w + 1) 3 = 0b110#3 ∨
       (cw.getLsbD w = true ∧ cw.extractLsb' (w + 1) 3 ≠ 0b001#3 ∧ cw.extractLsb' (w + 1) 3 ≠ 0b101#3) ∨
       (cw.extractLsb' 0 w ≠ 0#w ∧ cw.extractLsb' (w + 1) 3 ≠ 0b001#3 ∧ cw.extractLsb' (w + 1) 3 ≠ 0b010#3))

/-- The worked encodings of R107 decode to the operations they stand for (D2). -/
def Obligations.WorkedEncodings : Prop :=
  decode (w := 32) 0x3000003E8 = .ok (.edge .high 1000) ∧ decode (w := 32) 0x20000060E = .ok (.edge .low 1550) ∧
  decode (w := 32) 0x4000007D0 = .ok (.dstep 2000) ∧ decode (w := 32) 0xB00000000 = .ok (.config true) ∧
  decode (w := 32) 0xA00000000 = .ok (.config false)

/-! The step. -/

/-- When the next command word decodes to `i` on a machine of its width, a step is `exec i` on the state without that word,
and nothing else: there is no program counter to move (R7, R26; the queue of words is the model's, log entry 5). -/
def Obligations.StepRunsDecoded : Prop :=
  ∀ (s : State) (cw : CommandWord s.tsw) (rest : List Nat) (i : Instr),
    s.inbox = cw.toNat :: rest → decode cw = .ok i → step s = exec i (s.setInbox rest)

/-- A step with no operation waiting changes nothing (R7, R257), and a step refuses an invalid command word, and a number
that is no command word of the machine's width, by name (R105, R110); all rest on the queue of words, which is the model's
(log entry 5). -/
def Obligations.StepOtherwise : Prop :=
  ∀ s : State,
    (s.inbox = [] → step s = .next s) ∧
    (∀ (cw : CommandWord s.tsw) (rest : List Nat) (why : Invalid),
      s.inbox = cw.toNat :: rest → decode cw = .error why → step s = .refused (.invalidCommandWord why)) ∧
    (∀ (n : Nat) (rest : List Nat),
      s.inbox = n :: rest → 2 ^ (s.tsw + 4) ≤ n → step s = .refused (.invalidCommandWord .tooLong))

/-- No operation traps, faults, halts or fails, in any state, for any operands; of the command words of any width, only an
invalid one has no next state (R245). -/
def Obligations.NoOperationStops : Prop :=
  (∀ (i : Instr) (s : State), ∃ t, exec i s = .next t) ∧
  (∀ (s : State) (cw : CommandWord s.tsw),
    (∃ why, decode cw = .error why) ∨ ∃ i t, decode cw = .ok i ∧ exec i s = .next t)

/-! Reset. -/

/-- The start of every run (R260): the values the spec gives (its own choice, D18), for the default capacity 200
and the default width 32 (log entries 1 and 2), with nothing written in either memory. -/
def Obligations.ResetState : Prop :=
  State.reset.lastEdgeValid = false ∧ State.reset.shortPending = false ∧ State.reset.longPending = false ∧
  State.reset.qWr = 0 ∧ State.reset.qRd = 0 ∧ State.reset.mode = .search ∧ State.reset.progress = 0 ∧
  State.reset.count = 0 ∧ State.reset.useCelsius = false ∧ State.reset.readingPending = false ∧
  State.reset.cap = 200 ∧ State.reset.tsw = 32 ∧ State.reset.inbox = [] ∧
  (∀ i, State.reset.qMem.lookup i = none) ∧ (∀ i, State.reset.frame.lookup i = none)

/-- RESET in any state puts every element at its reset value (R229, R260; D18, D27), the unspecified ones at the draw
of the next reset (log entries 3 and 4), and keeps what is no element of the block. -/
def Obligations.ResetOperation : Prop :=
  ∀ s : State, ∃ t, exec .reset s = .next t ∧
    t.lastEdgeValid = false ∧ t.shortPending = false ∧ t.longPending = false ∧ t.qWr = 0 ∧ t.qRd = 0 ∧
    t.mode = .search ∧ t.progress = 0 ∧ t.count = 0 ∧ t.useCelsius = false ∧ t.readingPending = false ∧
    t.lastEdgeTime = (Config.unspecLastEdgeTime (s.resets + 1) s.tsw).toNat ∧
    t.capStart = (Config.unspecCapStart (s.resets + 1) s.tsw).toNat ∧
    t.slotId = Config.unspecSlotId (s.resets + 1) ∧ t.slotTemp = Config.unspecSlotTemp (s.resets + 1) ∧
    t.slotUnit = Scale.ofBit (Config.unspecSlotUnit (s.resets + 1)) ∧
    (∀ i, t.qRead i = Config.unspecQueueCell (s.resets + 1) i) ∧
    (∀ i, t.fRead i = Config.unspecFrameCell (s.resets + 1) i) ∧
    t.cap = s.cap ∧ t.tsw = s.tsw ∧ t.inbox = s.inbox ∧ t.resets = s.resets + 1 ∧ t.response = none ∧ t.trace = none

/-! EDGE. -/

/-- The first edge after reset only latches the time (R121). -/
def Obligations.EdgeFirst : Prop :=
  ∀ (s : State) (level : Level) (ts : Nat), s.lastEdgeValid = false →
    ∃ t, exec (.edge level ts) s = .next t ∧
      t.quiet = { s with lastEdgeValid := true, lastEdgeTime := ts }.quiet

/-- The coarse window: an interval that is not strictly between 400 and 1400 clears both flags and emits no bit,
whatever the level (R124). -/
def Obligations.EdgeDiscard : Prop :=
  ∀ (s : State) (level : Level) (ts : Nat), s.lastEdgeValid = true →
    ¬(400 < s.delta ts ∧ s.delta ts < 1400) →
    ∃ t, exec (.edge level ts) s = .next t ∧
      t.quiet = { s with shortPending := false, longPending := false, lastEdgeTime := ts }.quiet

/-- A falling edge inside the coarse window sets both flags by the class of the HIGH interval (R125 to R127; that each
class writes both flags and that the ends are excluded are the spec's own choices, D6 and D7). -/
def Obligations.EdgeFalling : Prop :=
  ∀ (s : State) (ts : Nat), s.lastEdgeValid = true →
    400 < s.delta ts → s.delta ts < 1400 →
    ∃ t, exec (.edge .low ts) s = .next t ∧
      t.quiet = { s with
        shortPending := decide (s.delta ts < 700),
        longPending := decide (1100 < s.delta ts),
        lastEdgeTime := ts }.quiet

/-- A rising edge inside the coarse window emits a bit when the LOW interval is a gap and a flag was set, 0 for long
and 1 for short, and clears both flags in every case (R128; D6, D8). -/
def Obligations.EdgeRising : Prop :=
  ∀ (s : State) (ts : Nat), s.lastEdgeValid = true →
    400 < s.delta ts → s.delta ts < 1400 →
    ∃ t, exec (.edge .high ts) s = .next t ∧
      t.quiet = { (if 800 < s.delta ts ∧ s.delta ts < 1200 then
          (if s.longPending then s.push false else if s.shortPending then s.push true else s)
        else s) with shortPending := false, longPending := false, lastEdgeTime := ts }.quiet

/-- Every EDGE ends with the time of this edge latched, in every branch, and the next interval is measured from it
(R129). -/
def Obligations.EdgeUpdatesLastTime : Prop :=
  ∀ (s : State) (level : Level) (ts : Nat), ∃ t, exec (.edge level ts) s = .next t ∧ t.lastEdgeTime = ts ∧
    ∀ ts' : Nat, t.delta ts' = timeSince s.tsw ts' ts

/-- A bit is pushed by an EDGE exactly under the conditions of R130, and it is 0 exactly when the long flag was set
(derived from D6, D7, D8). -/
def Obligations.EdgePushesIff : Prop :=
  ∀ (s : State) (level : Level) (ts : Nat), s.cursorsLegal →
    ∃ t, exec (.edge level ts) s = .next t ∧
      (t.qWr ≠ s.qWr ↔
        s.lastEdgeValid = true ∧ level = .high ∧
        800 < s.delta ts ∧ s.delta ts < 1200 ∧
        (s.shortPending = true ∨ s.longPending = true)) ∧
      (t.qWr ≠ s.qWr → t.qRead s.qWr = !s.longPending ∧ t.qWr = (s.qWr + 1) % s.cap)

/-- The frame of EDGE (R120, R36): it writes the classifier's elements, and of the memories at most the queue cell at
the write cursor; a falling edge writes no cell at all. -/
def Obligations.EdgeFrame : Prop :=
  ∀ (s t : State) (level : Level) (ts : Nat), exec (.edge level ts) s = .next t →
    s.sameDecoderOwned t ∧ t.useCelsius = s.useCelsius ∧ t.readingPending = s.readingPending ∧
    s.sameSurroundings t ∧ t.response = none ∧
    (∀ i, i ≠ s.qWr → t.qRead i = s.qRead i) ∧ (∀ i, t.fRead i = s.fRead i) ∧
    (level = .low → t.qWr = s.qWr ∧ ∀ i, t.qRead i = s.qRead i)

/-- The trace event of every EDGE (R120, R251; the events are the spec's own, D23), by the interval, which is the time of
this edge less that of the one before, modulo `2^TSW` (R122; the modulus is the spec's own choice, D4). -/
def Obligations.EdgeTrace : Prop :=
  ∀ (s : State) (level : Level) (ts : Nat), ∃ t, exec (.edge level ts) s = .next t ∧
    (s.delta ts : Int) = ((ts : Int) - s.lastEdgeTime) % 2 ^ s.tsw ∧
    t.trace = some (
      if s.lastEdgeValid = false then .eFirst
      else if s.delta ts ≤ 400 ∨ 1400 ≤ s.delta ts then .eDiscard
      else if level = .low then
        (if s.delta ts < 700 then .eShort
         else if s.delta ts ≤ 1100 then .eAmbig
         else .eLong)
      else
        (if s.delta ts ≤ 800 ∨ 1200 ≤ s.delta ts then .eNoBit
         else if s.longPending then .eBit0
         else if s.shortPending then .eBit1
         else .eNoBit))

/-- The line code: from a state whose last edge was at `t0`, the edges that send a list of bits (R119) push exactly
those bits, in order, and leave both flags clear (R90, R91), for every admissible clock. Where a time passes `2^TSW` it
wraps, which is the model's choice (log entry 34). -/
def Obligations.SendBitsPushes : Prop :=
  ∀ (s : State) (bs : List Bool) (t0 : Nat),
    s.clockLegal → s.lastEdgeValid = true → s.lastEdgeTime = t0 → s.shortPending = false → s.longPending = false →
    ∃ t, applyAll (sendBits s.tsw bs t0) s = .next t ∧
      t.quiet = { s.pushAll bs with lastEdgeTime := t.lastEdgeTime }.quiet

/-- On a signal whose levels alternate, both flags are 0 before every falling edge (R133), from any state with no
edge before it and no flag set. -/
def Obligations.AlternatingFlagsClear : Prop :=
  ∀ (s t : State) (es : List (Level × Nat)) (ts : Nat),
    s.lastEdgeValid = false → s.shortPending = false → s.longPending = false →
    levelsAlternate (es.map (fun e => Instr.edge e.1 e.2) ++ [.edge .low ts]) →
    applyAll (es.map (fun e => Instr.edge e.1 e.2)) s = .next t →
    t.shortPending = false ∧ t.longPending = false

/-! The bit queue. -/

/-- A push writes the bit at the write cursor and steps that cursor, and writes nothing else; it neither reads nor
writes the read cursor (R141, R142). -/
def Obligations.PushWrites : Prop :=
  ∀ (s : State) (b : Bool),
    (s.push b).qRead s.qWr = b ∧ (s.push b).qWr = (s.qWr + 1) % s.cap ∧
    (∀ i, i ≠ s.qWr → (s.push b).qRead i = s.qRead i) ∧
    s.push b = { s with qMem := (s.push b).qMem, qWr := (s.push b).qWr } ∧
    (∀ r, { s with qRd := r }.push b = { s.push b with qRd := r })

/-- A pop from a queue that is not empty returns the cell at the read cursor and steps that cursor; it changes nothing
else, the cell included (R143). -/
def Obligations.PopReads : Prop :=
  ∀ s : State, s.qRd ≠ s.qWr →
    ∃ t, s.pop = some (s.qRead s.qRd, t) ∧ t = { s with qRd := (s.qRd + 1) % s.cap } ∧
      ∀ i, t.qRead i = s.qRead i

/-- The queue has something pending exactly when the cursors differ, and it is empty exactly when the pending count
is 0 (R144). -/
def Obligations.EmptyTest : Prop :=
  ∀ s : State, (s.hasPending = true ↔ s.qRd ≠ s.qWr) ∧ (s.cursorsLegal → (s.qRd = s.qWr ↔ s.pend = 0))

/-- After any pushes into an empty queue, the most recent `n mod CAP` of the `n` bits are retrievable, in push order,
and no others (R148). -/
def Obligations.QueueRetrieval : Prop :=
  ∀ (s : State) (bs : List Bool), s.cursorsLegal → s.qRd = s.qWr →
    (s.pushAll bs).pend = bs.length % s.cap ∧
    (s.pushAll bs).unread = bs.drop (bs.length - bs.length % s.cap)

/-- First in, first out: a push that is no lap appends its bit to the unread bits, and a pop takes the oldest
(R145); on an empty queue there is no pop (R147, U1). -/
def Obligations.QueueFifo : Prop :=
  ∀ s : State, s.cursorsLegal →
    (∀ b, s.pend + 2 ≤ s.cap → (s.push b).unread = s.unread ++ [b]) ∧
    (s.hasPending = true → ∃ b t, s.pop = some (b, t) ∧ s.unread = b :: t.unread) ∧
    (s.hasPending = false → s.pop = none)

/-! DSTEP in SEARCH mode. -/

/-- On an empty queue DSTEP in SEARCH mode changes nothing and does not use `now` (R160). -/
def Obligations.SearchIdle : Prop :=
  ∀ (s : State) (now : Nat), s.mode = .search → s.qRd = s.qWr →
    ∃ t, exec (.dstep now) s = .next t ∧ t.quiet = s.quiet

/-- Advance: a popped bit that equals `PRE[progress]`, below 7, adds one to the progress (R157). -/
def Obligations.SearchAdvance : Prop :=
  ∀ (s : State) (now : Nat), s.mode = .search → s.qRd ≠ s.qWr →
    s.qRead s.qRd = [false, false, false, false, true, false, true, false].getD s.progress.val false →
    s.progress.val < 7 →
    ∃ t, exec (.dstep now) s = .next t ∧ t.progress.val = s.progress.val + 1 ∧
      t.quiet = { s with qRd := (s.qRd + 1) % s.cap, progress := t.progress }.quiet

/-- Match: the eighth bit opens the capture window at `now`, and the elapsed time is measured from it modulo `2^TSW`
(R158, R178; the instant and the modulus are the spec's own choices, D14 and D4). -/
def Obligations.SearchMatch : Prop :=
  ∀ (s : State) (now : Nat), s.mode = .search → s.qRd ≠ s.qWr → s.progress = 7 → s.qRead s.qRd = false →
    ∃ t, exec (.dstep now) s = .next t ∧
      t.quiet = { s with qRd := (s.qRd + 1) % s.cap, progress := 0, mode := .capture, count := 0,
                         capStart := now }.quiet ∧
      ∀ later : Nat, (t.elapsed later : Int) = ((later : Int) - now) % 2 ^ s.tsw

/-- Mismatch: a popped bit that differs from `PRE[progress]` puts the progress at 0, at every progress; the bit is
consumed (R159). -/
def Obligations.SearchMismatch : Prop :=
  ∀ (s : State) (now : Nat), s.mode = .search → s.qRd ≠ s.qWr →
    s.qRead s.qRd ≠ [false, false, false, false, true, false, true, false].getD s.progress.val false →
    ∃ t, exec (.dstep now) s = .next t ∧
      t.quiet = { s with qRd := (s.qRd + 1) % s.cap, progress := 0 }.quiet

/-- From progress 0, the eight preamble bits yield exactly one match, at the eighth, whatever the clock readings and
whatever follows in the queue (R162, R163 with C4; the window opens at the eighth reading, D14). -/
def Obligations.PreambleMatches : Prop :=
  ∀ (s : State) (nows : List Nat) (last : Nat) (rest : List Bool),
    s.cursorsLegal → s.mode = .search → s.progress = 0 → nows.length = 7 →
    s.unread = [false, false, false, false, true, false, true, false] ++ rest →
    (∀ k, k ≤ 7 → ∃ u, applyAll ((nows.take k).map Instr.dstep) s = .next u ∧ u.mode = .search) ∧
    ∃ t, applyAll ((nows ++ [last]).map Instr.dstep) s = .next t ∧
      t.mode = .capture ∧ t.progress = 0 ∧ t.count = 0 ∧ t.capStart = last ∧ t.unread = rest

/-! DSTEP in CAPTURE mode. -/

/-- The popped bit is written to the next frame slot, and no other bit of the frame changes (R173). -/
def Obligations.CaptureStoresBit : Prop :=
  ∀ (s : State) (now : Nat), s.mode = .capture → s.qRd ≠ s.qWr →
    ∃ t, exec (.dstep now) s = .next t ∧ t.fRead s.count.val = s.qRead s.qRd ∧ s.count.val < 36 ∧
      ∀ i, i ≠ s.count.val → t.fRead i = s.fRead i

/-- While the window is open and the frame is not full, the capture goes on with one more bit, or waits on an empty
queue (R172, R174; D13, D14). -/
def Obligations.CaptureContinues : Prop :=
  ∀ (s : State) (now : Nat), s.mode = .capture → s.elapsed now < 1000000 →
    (s.qRd ≠ s.qWr → s.count.val < 35 →
      ∃ t, exec (.dstep now) s = .next t ∧ t.count.val = s.count.val + 1 ∧
        t.quiet = { s with qRd := (s.qRd + 1) % s.cap, frame := t.frame, count := t.count }.quiet) ∧
    (s.qRd = s.qWr → ∃ t, exec (.dstep now) s = .next t ∧ t.quiet = s.quiet)

/-- From one second on, a capture that is not completed by this step is abandoned; a bit popped by the step is lost
with it (R176, R178; D13, D14). -/
def Obligations.CaptureTimesOut : Prop :=
  ∀ (s : State) (now : Nat), s.mode = .capture → 1000000 ≤ s.elapsed now →
    (s.qRd ≠ s.qWr → s.count.val < 35 →
      ∃ t, exec (.dstep now) s = .next t ∧
        t.quiet = { s with qRd := (s.qRd + 1) % s.cap, frame := t.frame, count := 0, mode := .search }.quiet) ∧
    (s.qRd = s.qWr →
      ∃ t, exec (.dstep now) s = .next t ∧ t.quiet = { s with count := 0, mode := .search }.quiet)

/-- The step that pops the 36th bit ends the capture, whatever the clock says, and publishes exactly when the checksum
of the completed frame holds (R175, R208; completion before timeout is the spec's own choice, D13). -/
def Obligations.CaptureCompletes : Prop :=
  ∀ (s : State) (now : Nat), s.mode = .capture → s.qRd ≠ s.qWr → s.count = 35 →
    ∃ t F, exec (.dstep now) s = .next t ∧
      (∀ i, i < 35 → F.getMsbD i = s.fRead i) ∧ F.getMsbD 35 = s.qRead s.qRd ∧ F = t.frameImage ∧
      t.quiet = (if checksumOk F then
          { s with qRd := (s.qRd + 1) % s.cap, frame := t.frame, count := 0, mode := .search }.publish F
        else { s with qRd := (s.qRd + 1) % s.cap, frame := t.frame, count := 0, mode := .search }).quiet

/-- The frame of DSTEP (R156, R170, R36): nothing the classifier owns changes, no cell of the queue, no frame cell but
the one at `count`, and that one only in CAPTURE; the progress stays in CAPTURE; the reading register stays, unless
this step publishes, and the pending flag too. -/
def Obligations.DecoderFrame : Prop :=
  ∀ (s t : State) (now : Nat), exec (.dstep now) s = .next t →
    s.sameInterruptOwned t ∧ t.useCelsius = s.useCelsius ∧ s.sameSurroundings t ∧ t.response = none ∧
    (∀ i, t.qRead i = s.qRead i) ∧
    (∀ i, i ≠ s.count.val → t.fRead i = s.fRead i) ∧
    (s.mode = .search ∨ s.qRd = s.qWr → ∀ i, t.fRead i = s.fRead i) ∧
    (s.mode = .capture → t.progress = s.progress ∧ t.capStart = s.capStart) ∧
    (t.trace ≠ some .dFrameOk →
      t.slotId = s.slotId ∧ t.slotTemp = s.slotTemp ∧ t.slotUnit = s.slotUnit ∧
      t.readingPending = s.readingPending)

/-- The trace event of every DSTEP (R156, R170, R251; the events are the spec's own, D23). -/
def Obligations.DecoderTrace : Prop :=
  ∀ (s : State) (now : Nat), ∃ t, exec (.dstep now) s = .next t ∧
    t.trace = some (
      match s.mode with
      | .search =>
        if s.qRd = s.qWr then .dIdle
        else if s.qRead s.qRd ≠ preambleBit s.progress then .dMiss
        else if s.progress = 7 then .dMatch
        else .dAdv
      | .capture =>
        if s.qRd ≠ s.qWr ∧ s.count = 35 then (if checksumOk t.frameImage then .dFrameOk else .dFrameBad)
        else if 1000000 ≤ s.elapsed now then .dTimeout
        else if s.qRd = s.qWr then .dWait
        else .dFbit)

/-- A whole transmission, end to end, for every admissible clock: from a state with a first edge at `t0`, no flag set, an
empty queue and the search at its start, the edges of the preamble and a checksum-valid frame, then a POLL with no EDGE
inside it, publish the frame's reading (R100, R117, R208; it rests on the decisions D6, D7, D12 to D17 through the rules,
and on log entries 21 and 34). -/
def Obligations.TransmissionPublishes : Prop :=
  ∀ (s : State) (F : Frame) (t0 now n : Nat),
    s.cursorsLegal → s.clockLegal → 45 ≤ s.cap → s.lastEdgeValid = true → s.lastEdgeTime = t0 →
    s.shortPending = false → s.longPending = false → s.qRd = s.qWr → s.mode = .search → s.progress = 0 →
    checksumOk F = true → 46 ≤ n →
    ∃ t u, applyAll (transmission s.tsw F t0) s = .next t ∧
      execPoll now (List.replicate n (.host now)) t = some (.next u) ∧
      u.response = some (.status true) ∧ u.slotId.toNat = sensorId F ∧
      u.slotTemp.toInt = publishedTemp s.useCelsius F ∧ u.slotUnit = Scale.ofBit s.useCelsius ∧
      u.frameImage = F ∧ u.mode = .search ∧ u.progress = 0 ∧ u.qRd = u.qWr

/-! The checksum. -/

/-- The checksum values, the field and the verdict, bit by bit, with the parity bit 11 left out of the sum (R191,
R193, R194). -/
def Obligations.ChecksumVerdict : Prop :=
  ∀ F : Frame,
    (∀ n, n < 8 → checksumValue F n =
      ((List.range 4).map (fun j =>
        if 4 * n + j = 11 then 0 else (F.getMsbD (4 * n + j)).toNat <<< (3 - j))).sum) ∧
    checksumField F =
      8 * (F.getMsbD 32).toNat + 4 * (F.getMsbD 33).toNat + 2 * (F.getMsbD 34).toNat + (F.getMsbD 35).toNat ∧
    (checksumOk F = true ↔
      (10 + checksumValue F 0 + checksumValue F 1 + checksumValue F 2 + checksumValue F 3 + checksumValue F 4
        + checksumValue F 5 + checksumValue F 6 + checksumValue F 7) % 16 = checksumField F)

/-- The 4-bit accumulator of R194's loop gives the same sum as R192's total (R192, derived there). -/
def Obligations.ChecksumLoopAgrees : Prop := ∀ F : Frame, checksumLoop F = checksumAcc F

/-- One flipped bit of a valid frame is always detected, except bit 11, which never is (R196). -/
def Obligations.SingleBitFlip : Prop :=
  ∀ (F : Frame) (i : Nat), i < 36 → checksumOk F = true →
    (checksumOk (F ^^^ BitVec.twoPow 36 (35 - i)) = true ↔ i = 11)

/-- Frames that differ only in bit 11 have the same verdict and publish the same reading (R197). -/
def Obligations.ParityIgnored : Prop :=
  ∀ F G : Frame, (∀ i, i < 36 → i ≠ 11 → F.getMsbD i = G.getMsbD i) →
    checksumOk F = checksumOk G ∧ ∀ s : State, s.publish F = s.publish G

/-! The field decoder and the reading register. -/

/-- The sensor ID is the seven bits 4 to 10 read as one unsigned number, earlier bit more significant, 0 to 127
(R201). -/
def Obligations.SensorIdValue : Prop :=
  ∀ F : Frame, sensorId F = (F.extractLsb' 25 7).toNat ∧ sensorId F ≤ 127 ∧
    sensorId F = ((List.range 7).map (fun k => (F.getMsbD (4 + k)).toNat <<< (6 - k))).sum

/-- The Fahrenheit value in thousandths is the five digits of nibbles 3 to 7 with their weights; a digit above 9 enters
with its plain value (R203, R204; thousandths are the spec's own choice, D16). -/
def Obligations.FahrenheitValue : Prop :=
  ∀ F : Frame, tempFahrenheit F =
      10000 * (F.extractLsb' 20 4).toNat + 1000 * (F.extractLsb' 16 4).toNat + 100 * (F.extractLsb' 12 4).toNat
        + 10 * (F.extractLsb' 8 4).toNat + (F.extractLsb' 4 4).toNat ∧
    tempFahrenheit F ≤ 166665

/-- The Celsius value is the exact `(tF - 32000) * 5 / 9` rounded to the nearest integer; there is no tie (R205, R206;
the rounding is the spec's own choice, D17). -/
def Obligations.CelsiusNearest : Prop :=
  ∀ tF : Nat, -9 < 18 * celsiusOf tF - 10 * ((tF : Int) - 32000) ∧
    18 * celsiusOf tF - 10 * ((tF : Int) - 32000) < 9

/-- The published temperature fits the 19-bit register, in both units, and stays in the range of R207. -/
def Obligations.TemperatureFits : Prop :=
  ∀ (u : Bool) (F : Frame),
    (BitVec.ofInt 19 (publishedTemp u F)).toInt = publishedTemp u F ∧
    -17778 ≤ publishedTemp u F ∧ publishedTemp u F ≤ 166665 ∧
    (u = true → publishedTemp u F ≤ 74814) ∧ (u = false → 0 ≤ publishedTemp u F)

/-- Publishing writes the reading register, whether or not a reading was pending, and sets the pending flag; it
changes nothing else (R208). -/
def Obligations.PublishWrites : Prop :=
  ∀ (s : State) (F : Frame),
    s.publish F = { s with
      slotId := BitVec.ofNat 7 (sensorId F),
      slotTemp := if s.useCelsius then BitVec.ofInt 19 (celsiusOf (tempFahrenheit F))
        else BitVec.ofNat 19 (tempFahrenheit F),
      slotUnit := if s.useCelsius then .celsius else .fahrenheit,
      readingPending := true }

/-- The reading register is written only by RESET and by a DSTEP in CAPTURE mode that completes a frame whose checksum
holds (R200, R175). -/
def Obligations.ReadingOnlyFromValidFrame : Prop :=
  ∀ (i : Instr) (s t : State), exec i s = .next t →
    t.slotId ≠ s.slotId ∨ t.slotTemp ≠ s.slotTemp ∨ t.slotUnit ≠ s.slotUnit →
    i = .reset ∨ (∃ now, i = .dstep now ∧ s.mode = .capture ∧ s.qRd ≠ s.qWr ∧ s.count = 35 ∧
      checksumOk t.frameImage = true)

/-! The host operations. -/

/-- STATUS responds with the pending flag and writes nothing (R222, R113). -/
def Obligations.StatusResponds : Prop :=
  ∀ s : State, ∃ t, exec .status s = .next t ∧ t.response = some (.status s.readingPending) ∧ t.quiet = s.quiet

/-- TAKE responds with the reading register, whether or not a reading is pending, and clears the pending flag; it
writes nothing else (R224). -/
def Obligations.TakeResponds : Prop :=
  ∀ s : State, ∃ t, exec .take s = .next t ∧
    t.response = some (.reading (readingWord s.slotUnit s.slotId s.slotTemp)) ∧
    t.quiet = { s with readingPending := false }.quiet

/-- The response word of TAKE, field by field (R114; the packing is the spec's own choice, D3). -/
def Obligations.ReadingWordFields : Prop :=
  ∀ (u : Scale) (d : BitVec 7) (x : BitVec 19),
    (readingWord u d x).getLsbD 26 = u.toBit ∧ (readingWord u d x).extractLsb' 19 7 = d ∧
    (readingWord u d x).extractLsb' 0 19 = x

/-- Two TAKEs with no publish and no RESET between them respond the same, whatever else comes between, DSTEPs that publish
nothing among it (R225; S6). -/
def Obligations.TakeAgain : Prop :=
  ∀ (s t u v : State) (is : List Instr),
    .reset ∉ is → .dFrameOk ∉ tracesOf is t →
    exec .take s = .next t → applyAll is t = .next u → exec .take u = .next v →
    v.response = t.response

/-- CONFIG writes `use_celsius` and nothing else, in every state (R226). -/
def Obligations.ConfigWrites : Prop :=
  ∀ (s : State) (u : Bool), ∃ t, exec (.config u) s = .next t ∧ t.response = none ∧
    t.quiet = { s with useCelsius := u }.quiet

/-- NOP writes nothing and has no response or trace event (R228; the operation is the spec's own, D2). -/
def Obligations.NopDoesNothing : Prop :=
  ∀ s : State, ∃ t, exec .nop s = .next t ∧ t.quiet = s.quiet ∧ t.response = none ∧ t.trace = none

/-- The frame of STATUS, TAKE, CONFIG and NOP (R222 to R228): nothing EDGE owns, nothing of the decoder, no cell of
either memory changes; the pending flag changes only in TAKE and the unit selection only in CONFIG. -/
def Obligations.HostOperationsFrame : Prop :=
  ∀ (i : Instr) (s t : State), i = .status ∨ i = .take ∨ i = .nop ∨ (∃ u, i = .config u) →
    exec i s = .next t →
    s.sameInterruptOwned t ∧ s.sameDecoderOwned t ∧ s.sameSurroundings t ∧ t.trace = none ∧
    (∀ k, t.qRead k = s.qRead k) ∧ (∀ k, t.fRead k = s.fRead k) ∧
    (i ≠ .take → t.readingPending = s.readingPending) ∧
    ((∀ u, i ≠ .config u) → t.useCelsius = s.useCelsius)

/-! The whole machine. -/

/-- Every step keeps the invariants of R38 (a) to (e), the canonical form of the memories and the widths of the clock and
of the time latches among them. -/
def Obligations.StepKeepsInv : Prop := ∀ s t : State, s.Inv → step s = .next t → t.Inv

/-- The invariants of R38 hold after reset. -/
def Obligations.ResetInv : Prop := State.reset.Inv

/-- Only RESET makes the block forget that it has seen an edge; only a publish sets the pending flag, and only TAKE and
RESET clear it; only CONFIG and RESET change the unit selection (R23, R31, R33). -/
def Obligations.OneBitRegisters : Prop :=
  ∀ (i : Instr) (s t : State), exec i s = .next t →
    (s.lastEdgeValid = true → t.lastEdgeValid = false → i = .reset) ∧
    (s.readingPending = false → t.readingPending = true → (∃ now, i = .dstep now) ∧ t.trace = some .dFrameOk) ∧
    (s.readingPending = true → t.readingPending = false → i = .take ∨ i = .reset) ∧
    (t.useCelsius ≠ s.useCelsius → (∃ u, i = .config u) ∨ i = .reset)

/-- An EDGE and an operation of the polling context commute: in either order they reach the same block (R271, R80;
atomicity is the spec's own choice, D11). For a DSTEP this holds while no lap occurs and a bit is pending: else the DSTEP
finds the queue empty before the EDGE and not after it. -/
def Obligations.EdgeCommutesWithPolling : Prop :=
  ∀ (s : State) (level : Level) (ts : Nat) (i : Instr),
    contextOf i = some .polling →
    ((∃ now, i = .dstep now) → s.cursorsLegal ∧ s.hasPending = true ∧ s.roomForBit) →
    ∃ t u, applyAll [.edge level ts, i] s = .next t ∧ applyAll [i, .edge level ts] s = .next u ∧ t.quiet = u.quiet

/-- POLL and POLLB turn by turn, with EDGEs between any two of their operations (R117, R118, R231; the turns are the model's,
log entry 21). The turns of a POLL that ends are a run of turns, the turn of the last test, edges, the turn of STATUS, and
turns not used; its operations are one for each turn of the run, the EDGE of the turn or a DSTEP at `now`, then those edges,
then STATUS. Something is pending before each DSTEP and nothing at the last test; the response is the pending flag; the
DSTEPs are at most the unread bits and those that arrive. It ends when the polling context has had its turns, and with no
EDGE inside it is one DSTEP for each unread bit. A POLLB that ends is the same with each DSTEP at the clock reading of its
turn: the last DSTEP, and none before it, leaves SEARCH with an empty queue. -/
def Obligations.PollDrains : Prop :=
  ∀ (s : State) (now : Nat) (turns : List Turn), s.cursorsLegal →
    (∀ ops, pollOps now turns s = some ops →
      ∃ run last pause final rest u t, turns = run ++ .host last :: pause ++ .host final :: rest ∧
        (∀ x ∈ pause, x.isEdge = true) ∧
        ops = run.map (Turn.op fun _ => now) ++ pause.map (Turn.op fun _ => now) ++ [.status] ∧
        (∀ earlier clock later, run = earlier ++ .host clock :: later →
          ∃ v, applyAll (earlier.map (Turn.op fun _ => now)) s = .next v ∧ v.hasPending = true) ∧
        applyAll (run.map (Turn.op fun _ => now)) s = .next u ∧ u.hasPending = false ∧
        applyAll ops s = .next t ∧ t.response = some (.status t.readingPending) ∧
        ops.countP isDstep ≤ s.pend + bitsPushed ops s) ∧
    (s.pend + turns.countP Turn.isEdge + 2 ≤ turns.countP (fun x => !x.isEdge) → (pollOps now turns s).isSome = true) ∧
    (∀ n clock, s.pend + 2 ≤ n →
      pollOps now (List.replicate n (.host clock)) s = some (List.replicate s.pend (.dstep now) ++ [.status])) ∧
    (∀ ops, pollBlockingOps turns s = some ops →
      ∃ run last pause final rest u t, turns = run ++ .host last :: pause ++ .host final :: rest ∧
        (∀ x ∈ pause, x.isEdge = true) ∧
        ops = run.map (Turn.op id) ++ .dstep last :: pause.map (Turn.op id) ++ [.status] ∧
        (∀ earlier clock later, run = earlier ++ .host clock :: later →
          ∃ v, applyAll (earlier.map (Turn.op id) ++ [.dstep clock]) s = .next v ∧
            ¬(v.mode = .search ∧ v.hasPending = false)) ∧
        applyAll (run.map (Turn.op id) ++ [.dstep last]) s = .next u ∧ u.mode = .search ∧ u.hasPending = false ∧
        applyAll ops s = .next t ∧ t.response = some (.status t.readingPending))

/-- No unspecified reset value reaches anything but a TAKE's response (R261): applied to two states that differ only in
such values, an operation gives two states that differ only in such values; the responses agree unless it is TAKE,
the reading registers agree after a publish, and once they agree they stay so and TAKE's responses agree too. -/
def Obligations.UnspecifiedNeverLeaks : Prop :=
  ∀ (i : Instr) (s t : State), s.Inv → t.Inv → s.SameUpToUnspecified t →
    ∃ s' t', exec i s = .next s' ∧ exec i t = .next t' ∧ s'.SameUpToUnspecified t' ∧
      (i ≠ .take → s'.response = t'.response) ∧
      (s'.trace = some .dFrameOk →
        s'.slotId = t'.slotId ∧ s'.slotTemp = t'.slotTemp ∧ s'.slotUnit = t'.slotUnit) ∧
      (i ≠ .reset → s.slotId = t.slotId → s.slotTemp = t.slotTemp → s.slotUnit = t.slotUnit →
        s'.slotId = t'.slotId ∧ s'.slotTemp = t'.slotTemp ∧ s'.slotUnit = t'.slotUnit ∧
        s'.response = t'.response)
end

