-- ==== Sys2Proof/Laws/State.lean ====
section
/-! SUPPORT. What each update of the state does to each field: one lemma per field per update. -/

namespace Sys2Proof.Machine

/-! The fields after `FWrite` (R12). -/
@[simp] theorem State.fWrite_lastEdgeValid (s : State) (i : Nat) (b : Bool) : (s.fWrite i b).lastEdgeValid = s.lastEdgeValid := rfl
@[simp] theorem State.fWrite_lastEdgeTime (s : State) (i : Nat) (b : Bool) : (s.fWrite i b).lastEdgeTime = s.lastEdgeTime := rfl
@[simp] theorem State.fWrite_shortPending (s : State) (i : Nat) (b : Bool) : (s.fWrite i b).shortPending = s.shortPending := rfl
@[simp] theorem State.fWrite_longPending (s : State) (i : Nat) (b : Bool) : (s.fWrite i b).longPending = s.longPending := rfl
@[simp] theorem State.fWrite_qMem (s : State) (i : Nat) (b : Bool) : (s.fWrite i b).qMem = s.qMem := rfl
@[simp] theorem State.fWrite_qWr (s : State) (i : Nat) (b : Bool) : (s.fWrite i b).qWr = s.qWr := rfl
@[simp] theorem State.fWrite_qRd (s : State) (i : Nat) (b : Bool) : (s.fWrite i b).qRd = s.qRd := rfl
@[simp] theorem State.fWrite_mode (s : State) (i : Nat) (b : Bool) : (s.fWrite i b).mode = s.mode := rfl
@[simp] theorem State.fWrite_progress (s : State) (i : Nat) (b : Bool) : (s.fWrite i b).progress = s.progress := rfl
@[simp] theorem State.fWrite_frame (s : State) (i : Nat) (b : Bool) : (s.fWrite i b).frame = s.frame.write i b := rfl
@[simp] theorem State.fWrite_count (s : State) (i : Nat) (b : Bool) : (s.fWrite i b).count = s.count := rfl
@[simp] theorem State.fWrite_capStart (s : State) (i : Nat) (b : Bool) : (s.fWrite i b).capStart = s.capStart := rfl
@[simp] theorem State.fWrite_useCelsius (s : State) (i : Nat) (b : Bool) : (s.fWrite i b).useCelsius = s.useCelsius := rfl
@[simp] theorem State.fWrite_slotId (s : State) (i : Nat) (b : Bool) : (s.fWrite i b).slotId = s.slotId := rfl
@[simp] theorem State.fWrite_slotTemp (s : State) (i : Nat) (b : Bool) : (s.fWrite i b).slotTemp = s.slotTemp := rfl
@[simp] theorem State.fWrite_slotUnit (s : State) (i : Nat) (b : Bool) : (s.fWrite i b).slotUnit = s.slotUnit := rfl
@[simp] theorem State.fWrite_readingPending (s : State) (i : Nat) (b : Bool) : (s.fWrite i b).readingPending = s.readingPending := rfl
@[simp] theorem State.fWrite_cap (s : State) (i : Nat) (b : Bool) : (s.fWrite i b).cap = s.cap := rfl
@[simp] theorem State.fWrite_tsw (s : State) (i : Nat) (b : Bool) : (s.fWrite i b).tsw = s.tsw := rfl
@[simp] theorem State.fWrite_resets (s : State) (i : Nat) (b : Bool) : (s.fWrite i b).resets = s.resets := rfl
@[simp] theorem State.fWrite_inbox (s : State) (i : Nat) (b : Bool) : (s.fWrite i b).inbox = s.inbox := rfl
@[simp] theorem State.fWrite_response (s : State) (i : Nat) (b : Bool) : (s.fWrite i b).response = s.response := rfl
@[simp] theorem State.fWrite_trace (s : State) (i : Nat) (b : Bool) : (s.fWrite i b).trace = s.trace := rfl

/-! The fields after `push` (R141). -/
@[simp] theorem State.push_lastEdgeValid (s : State) (b : Bool) : (s.push b).lastEdgeValid = s.lastEdgeValid := rfl
@[simp] theorem State.push_lastEdgeTime (s : State) (b : Bool) : (s.push b).lastEdgeTime = s.lastEdgeTime := rfl
@[simp] theorem State.push_shortPending (s : State) (b : Bool) : (s.push b).shortPending = s.shortPending := rfl
@[simp] theorem State.push_longPending (s : State) (b : Bool) : (s.push b).longPending = s.longPending := rfl
@[simp] theorem State.push_qMem (s : State) (b : Bool) : (s.push b).qMem = s.qMem.write s.qWr b := rfl
@[simp] theorem State.push_qWr (s : State) (b : Bool) : (s.push b).qWr = s.nextCursor s.qWr := rfl
@[simp] theorem State.push_qRd (s : State) (b : Bool) : (s.push b).qRd = s.qRd := rfl
@[simp] theorem State.push_mode (s : State) (b : Bool) : (s.push b).mode = s.mode := rfl
@[simp] theorem State.push_progress (s : State) (b : Bool) : (s.push b).progress = s.progress := rfl
@[simp] theorem State.push_frame (s : State) (b : Bool) : (s.push b).frame = s.frame := rfl
@[simp] theorem State.push_count (s : State) (b : Bool) : (s.push b).count = s.count := rfl
@[simp] theorem State.push_capStart (s : State) (b : Bool) : (s.push b).capStart = s.capStart := rfl
@[simp] theorem State.push_useCelsius (s : State) (b : Bool) : (s.push b).useCelsius = s.useCelsius := rfl
@[simp] theorem State.push_slotId (s : State) (b : Bool) : (s.push b).slotId = s.slotId := rfl
@[simp] theorem State.push_slotTemp (s : State) (b : Bool) : (s.push b).slotTemp = s.slotTemp := rfl
@[simp] theorem State.push_slotUnit (s : State) (b : Bool) : (s.push b).slotUnit = s.slotUnit := rfl
@[simp] theorem State.push_readingPending (s : State) (b : Bool) : (s.push b).readingPending = s.readingPending := rfl
@[simp] theorem State.push_cap (s : State) (b : Bool) : (s.push b).cap = s.cap := rfl
@[simp] theorem State.push_tsw (s : State) (b : Bool) : (s.push b).tsw = s.tsw := rfl
@[simp] theorem State.push_resets (s : State) (b : Bool) : (s.push b).resets = s.resets := rfl
@[simp] theorem State.push_inbox (s : State) (b : Bool) : (s.push b).inbox = s.inbox := rfl
@[simp] theorem State.push_response (s : State) (b : Bool) : (s.push b).response = s.response := rfl
@[simp] theorem State.push_trace (s : State) (b : Bool) : (s.push b).trace = s.trace := rfl

/-! The fields after the cursor step of `pop` (R143). -/
@[simp] theorem State.advanceRead_lastEdgeValid (s : State) : s.advanceRead.lastEdgeValid = s.lastEdgeValid := rfl
@[simp] theorem State.advanceRead_lastEdgeTime (s : State) : s.advanceRead.lastEdgeTime = s.lastEdgeTime := rfl
@[simp] theorem State.advanceRead_shortPending (s : State) : s.advanceRead.shortPending = s.shortPending := rfl
@[simp] theorem State.advanceRead_longPending (s : State) : s.advanceRead.longPending = s.longPending := rfl
@[simp] theorem State.advanceRead_qMem (s : State) : s.advanceRead.qMem = s.qMem := rfl
@[simp] theorem State.advanceRead_qWr (s : State) : s.advanceRead.qWr = s.qWr := rfl
@[simp] theorem State.advanceRead_qRd (s : State) : s.advanceRead.qRd = s.nextCursor s.qRd := rfl
@[simp] theorem State.advanceRead_mode (s : State) : s.advanceRead.mode = s.mode := rfl
@[simp] theorem State.advanceRead_progress (s : State) : s.advanceRead.progress = s.progress := rfl
@[simp] theorem State.advanceRead_frame (s : State) : s.advanceRead.frame = s.frame := rfl
@[simp] theorem State.advanceRead_count (s : State) : s.advanceRead.count = s.count := rfl
@[simp] theorem State.advanceRead_capStart (s : State) : s.advanceRead.capStart = s.capStart := rfl
@[simp] theorem State.advanceRead_useCelsius (s : State) : s.advanceRead.useCelsius = s.useCelsius := rfl
@[simp] theorem State.advanceRead_slotId (s : State) : s.advanceRead.slotId = s.slotId := rfl
@[simp] theorem State.advanceRead_slotTemp (s : State) : s.advanceRead.slotTemp = s.slotTemp := rfl
@[simp] theorem State.advanceRead_slotUnit (s : State) : s.advanceRead.slotUnit = s.slotUnit := rfl
@[simp] theorem State.advanceRead_readingPending (s : State) : s.advanceRead.readingPending = s.readingPending := rfl
@[simp] theorem State.advanceRead_cap (s : State) : s.advanceRead.cap = s.cap := rfl
@[simp] theorem State.advanceRead_tsw (s : State) : s.advanceRead.tsw = s.tsw := rfl
@[simp] theorem State.advanceRead_resets (s : State) : s.advanceRead.resets = s.resets := rfl
@[simp] theorem State.advanceRead_inbox (s : State) : s.advanceRead.inbox = s.inbox := rfl
@[simp] theorem State.advanceRead_response (s : State) : s.advanceRead.response = s.response := rfl
@[simp] theorem State.advanceRead_trace (s : State) : s.advanceRead.trace = s.trace := rfl

/-! The fields after the outputs (R12). -/
@[simp] theorem State.emit_lastEdgeValid (s : State) (r : Option Response) (e : Option TraceEvent) : (s.emit r e).lastEdgeValid = s.lastEdgeValid := rfl
@[simp] theorem State.emit_lastEdgeTime (s : State) (r : Option Response) (e : Option TraceEvent) : (s.emit r e).lastEdgeTime = s.lastEdgeTime := rfl
@[simp] theorem State.emit_shortPending (s : State) (r : Option Response) (e : Option TraceEvent) : (s.emit r e).shortPending = s.shortPending := rfl
@[simp] theorem State.emit_longPending (s : State) (r : Option Response) (e : Option TraceEvent) : (s.emit r e).longPending = s.longPending := rfl
@[simp] theorem State.emit_qMem (s : State) (r : Option Response) (e : Option TraceEvent) : (s.emit r e).qMem = s.qMem := rfl
@[simp] theorem State.emit_qWr (s : State) (r : Option Response) (e : Option TraceEvent) : (s.emit r e).qWr = s.qWr := rfl
@[simp] theorem State.emit_qRd (s : State) (r : Option Response) (e : Option TraceEvent) : (s.emit r e).qRd = s.qRd := rfl
@[simp] theorem State.emit_mode (s : State) (r : Option Response) (e : Option TraceEvent) : (s.emit r e).mode = s.mode := rfl
@[simp] theorem State.emit_progress (s : State) (r : Option Response) (e : Option TraceEvent) : (s.emit r e).progress = s.progress := rfl
@[simp] theorem State.emit_frame (s : State) (r : Option Response) (e : Option TraceEvent) : (s.emit r e).frame = s.frame := rfl
@[simp] theorem State.emit_count (s : State) (r : Option Response) (e : Option TraceEvent) : (s.emit r e).count = s.count := rfl
@[simp] theorem State.emit_capStart (s : State) (r : Option Response) (e : Option TraceEvent) : (s.emit r e).capStart = s.capStart := rfl
@[simp] theorem State.emit_useCelsius (s : State) (r : Option Response) (e : Option TraceEvent) : (s.emit r e).useCelsius = s.useCelsius := rfl
@[simp] theorem State.emit_slotId (s : State) (r : Option Response) (e : Option TraceEvent) : (s.emit r e).slotId = s.slotId := rfl
@[simp] theorem State.emit_slotTemp (s : State) (r : Option Response) (e : Option TraceEvent) : (s.emit r e).slotTemp = s.slotTemp := rfl
@[simp] theorem State.emit_slotUnit (s : State) (r : Option Response) (e : Option TraceEvent) : (s.emit r e).slotUnit = s.slotUnit := rfl
@[simp] theorem State.emit_readingPending (s : State) (r : Option Response) (e : Option TraceEvent) : (s.emit r e).readingPending = s.readingPending := rfl
@[simp] theorem State.emit_cap (s : State) (r : Option Response) (e : Option TraceEvent) : (s.emit r e).cap = s.cap := rfl
@[simp] theorem State.emit_tsw (s : State) (r : Option Response) (e : Option TraceEvent) : (s.emit r e).tsw = s.tsw := rfl
@[simp] theorem State.emit_resets (s : State) (r : Option Response) (e : Option TraceEvent) : (s.emit r e).resets = s.resets := rfl
@[simp] theorem State.emit_inbox (s : State) (r : Option Response) (e : Option TraceEvent) : (s.emit r e).inbox = s.inbox := rfl
@[simp] theorem State.emit_response (s : State) (r : Option Response) (e : Option TraceEvent) : (s.emit r e).response = r := rfl
@[simp] theorem State.emit_trace (s : State) (r : Option Response) (e : Option TraceEvent) : (s.emit r e).trace = e := rfl

/-! The fields after the time latch (R129). -/
@[simp] theorem State.latchEdge_lastEdgeValid (s : State) (ts : Nat) : (s.latchEdge ts).lastEdgeValid = true := rfl
@[simp] theorem State.latchEdge_lastEdgeTime (s : State) (ts : Nat) : (s.latchEdge ts).lastEdgeTime = ts := rfl
@[simp] theorem State.latchEdge_shortPending (s : State) (ts : Nat) : (s.latchEdge ts).shortPending = s.shortPending := rfl
@[simp] theorem State.latchEdge_longPending (s : State) (ts : Nat) : (s.latchEdge ts).longPending = s.longPending := rfl
@[simp] theorem State.latchEdge_qMem (s : State) (ts : Nat) : (s.latchEdge ts).qMem = s.qMem := rfl
@[simp] theorem State.latchEdge_qWr (s : State) (ts : Nat) : (s.latchEdge ts).qWr = s.qWr := rfl
@[simp] theorem State.latchEdge_qRd (s : State) (ts : Nat) : (s.latchEdge ts).qRd = s.qRd := rfl
@[simp] theorem State.latchEdge_mode (s : State) (ts : Nat) : (s.latchEdge ts).mode = s.mode := rfl
@[simp] theorem State.latchEdge_progress (s : State) (ts : Nat) : (s.latchEdge ts).progress = s.progress := rfl
@[simp] theorem State.latchEdge_frame (s : State) (ts : Nat) : (s.latchEdge ts).frame = s.frame := rfl
@[simp] theorem State.latchEdge_count (s : State) (ts : Nat) : (s.latchEdge ts).count = s.count := rfl
@[simp] theorem State.latchEdge_capStart (s : State) (ts : Nat) : (s.latchEdge ts).capStart = s.capStart := rfl
@[simp] theorem State.latchEdge_useCelsius (s : State) (ts : Nat) : (s.latchEdge ts).useCelsius = s.useCelsius := rfl
@[simp] theorem State.latchEdge_slotId (s : State) (ts : Nat) : (s.latchEdge ts).slotId = s.slotId := rfl
@[simp] theorem State.latchEdge_slotTemp (s : State) (ts : Nat) : (s.latchEdge ts).slotTemp = s.slotTemp := rfl
@[simp] theorem State.latchEdge_slotUnit (s : State) (ts : Nat) : (s.latchEdge ts).slotUnit = s.slotUnit := rfl
@[simp] theorem State.latchEdge_readingPending (s : State) (ts : Nat) : (s.latchEdge ts).readingPending = s.readingPending := rfl
@[simp] theorem State.latchEdge_cap (s : State) (ts : Nat) : (s.latchEdge ts).cap = s.cap := rfl
@[simp] theorem State.latchEdge_tsw (s : State) (ts : Nat) : (s.latchEdge ts).tsw = s.tsw := rfl
@[simp] theorem State.latchEdge_resets (s : State) (ts : Nat) : (s.latchEdge ts).resets = s.resets := rfl
@[simp] theorem State.latchEdge_inbox (s : State) (ts : Nat) : (s.latchEdge ts).inbox = s.inbox := rfl
@[simp] theorem State.latchEdge_response (s : State) (ts : Nat) : (s.latchEdge ts).response = s.response := rfl
@[simp] theorem State.latchEdge_trace (s : State) (ts : Nat) : (s.latchEdge ts).trace = s.trace := rfl

/-! The fields after the pending-pulse flags (R32). -/
@[simp] theorem State.setPulse_lastEdgeValid (s : State) (a b : Bool) : (s.setPulse a b).lastEdgeValid = s.lastEdgeValid := rfl
@[simp] theorem State.setPulse_lastEdgeTime (s : State) (a b : Bool) : (s.setPulse a b).lastEdgeTime = s.lastEdgeTime := rfl
@[simp] theorem State.setPulse_shortPending (s : State) (a b : Bool) : (s.setPulse a b).shortPending = a := rfl
@[simp] theorem State.setPulse_longPending (s : State) (a b : Bool) : (s.setPulse a b).longPending = b := rfl
@[simp] theorem State.setPulse_qMem (s : State) (a b : Bool) : (s.setPulse a b).qMem = s.qMem := rfl
@[simp] theorem State.setPulse_qWr (s : State) (a b : Bool) : (s.setPulse a b).qWr = s.qWr := rfl
@[simp] theorem State.setPulse_qRd (s : State) (a b : Bool) : (s.setPulse a b).qRd = s.qRd := rfl
@[simp] theorem State.setPulse_mode (s : State) (a b : Bool) : (s.setPulse a b).mode = s.mode := rfl
@[simp] theorem State.setPulse_progress (s : State) (a b : Bool) : (s.setPulse a b).progress = s.progress := rfl
@[simp] theorem State.setPulse_frame (s : State) (a b : Bool) : (s.setPulse a b).frame = s.frame := rfl
@[simp] theorem State.setPulse_count (s : State) (a b : Bool) : (s.setPulse a b).count = s.count := rfl
@[simp] theorem State.setPulse_capStart (s : State) (a b : Bool) : (s.setPulse a b).capStart = s.capStart := rfl
@[simp] theorem State.setPulse_useCelsius (s : State) (a b : Bool) : (s.setPulse a b).useCelsius = s.useCelsius := rfl
@[simp] theorem State.setPulse_slotId (s : State) (a b : Bool) : (s.setPulse a b).slotId = s.slotId := rfl
@[simp] theorem State.setPulse_slotTemp (s : State) (a b : Bool) : (s.setPulse a b).slotTemp = s.slotTemp := rfl
@[simp] theorem State.setPulse_slotUnit (s : State) (a b : Bool) : (s.setPulse a b).slotUnit = s.slotUnit := rfl
@[simp] theorem State.setPulse_readingPending (s : State) (a b : Bool) : (s.setPulse a b).readingPending = s.readingPending := rfl
@[simp] theorem State.setPulse_cap (s : State) (a b : Bool) : (s.setPulse a b).cap = s.cap := rfl
@[simp] theorem State.setPulse_tsw (s : State) (a b : Bool) : (s.setPulse a b).tsw = s.tsw := rfl
@[simp] theorem State.setPulse_resets (s : State) (a b : Bool) : (s.setPulse a b).resets = s.resets := rfl
@[simp] theorem State.setPulse_inbox (s : State) (a b : Bool) : (s.setPulse a b).inbox = s.inbox := rfl
@[simp] theorem State.setPulse_response (s : State) (a b : Bool) : (s.setPulse a b).response = s.response := rfl
@[simp] theorem State.setPulse_trace (s : State) (a b : Bool) : (s.setPulse a b).trace = s.trace := rfl

/-! The fields after the progress counter (R28). -/
@[simp] theorem State.setProgress_lastEdgeValid (s : State) (p : Fin 8) : (s.setProgress p).lastEdgeValid = s.lastEdgeValid := rfl
@[simp] theorem State.setProgress_lastEdgeTime (s : State) (p : Fin 8) : (s.setProgress p).lastEdgeTime = s.lastEdgeTime := rfl
@[simp] theorem State.setProgress_shortPending (s : State) (p : Fin 8) : (s.setProgress p).shortPending = s.shortPending := rfl
@[simp] theorem State.setProgress_longPending (s : State) (p : Fin 8) : (s.setProgress p).longPending = s.longPending := rfl
@[simp] theorem State.setProgress_qMem (s : State) (p : Fin 8) : (s.setProgress p).qMem = s.qMem := rfl
@[simp] theorem State.setProgress_qWr (s : State) (p : Fin 8) : (s.setProgress p).qWr = s.qWr := rfl
@[simp] theorem State.setProgress_qRd (s : State) (p : Fin 8) : (s.setProgress p).qRd = s.qRd := rfl
@[simp] theorem State.setProgress_mode (s : State) (p : Fin 8) : (s.setProgress p).mode = s.mode := rfl
@[simp] theorem State.setProgress_progress (s : State) (p : Fin 8) : (s.setProgress p).progress = p := rfl
@[simp] theorem State.setProgress_frame (s : State) (p : Fin 8) : (s.setProgress p).frame = s.frame := rfl
@[simp] theorem State.setProgress_count (s : State) (p : Fin 8) : (s.setProgress p).count = s.count := rfl
@[simp] theorem State.setProgress_capStart (s : State) (p : Fin 8) : (s.setProgress p).capStart = s.capStart := rfl
@[simp] theorem State.setProgress_useCelsius (s : State) (p : Fin 8) : (s.setProgress p).useCelsius = s.useCelsius := rfl
@[simp] theorem State.setProgress_slotId (s : State) (p : Fin 8) : (s.setProgress p).slotId = s.slotId := rfl
@[simp] theorem State.setProgress_slotTemp (s : State) (p : Fin 8) : (s.setProgress p).slotTemp = s.slotTemp := rfl
@[simp] theorem State.setProgress_slotUnit (s : State) (p : Fin 8) : (s.setProgress p).slotUnit = s.slotUnit := rfl
@[simp] theorem State.setProgress_readingPending (s : State) (p : Fin 8) : (s.setProgress p).readingPending = s.readingPending := rfl
@[simp] theorem State.setProgress_cap (s : State) (p : Fin 8) : (s.setProgress p).cap = s.cap := rfl
@[simp] theorem State.setProgress_tsw (s : State) (p : Fin 8) : (s.setProgress p).tsw = s.tsw := rfl
@[simp] theorem State.setProgress_resets (s : State) (p : Fin 8) : (s.setProgress p).resets = s.resets := rfl
@[simp] theorem State.setProgress_inbox (s : State) (p : Fin 8) : (s.setProgress p).inbox = s.inbox := rfl
@[simp] theorem State.setProgress_response (s : State) (p : Fin 8) : (s.setProgress p).response = s.response := rfl
@[simp] theorem State.setProgress_trace (s : State) (p : Fin 8) : (s.setProgress p).trace = s.trace := rfl

/-! The fields after the preamble match (R158). -/
@[simp] theorem State.openCapture_lastEdgeValid (s : State) (now : Nat) : (s.openCapture now).lastEdgeValid = s.lastEdgeValid := rfl
@[simp] theorem State.openCapture_lastEdgeTime (s : State) (now : Nat) : (s.openCapture now).lastEdgeTime = s.lastEdgeTime := rfl
@[simp] theorem State.openCapture_shortPending (s : State) (now : Nat) : (s.openCapture now).shortPending = s.shortPending := rfl
@[simp] theorem State.openCapture_longPending (s : State) (now : Nat) : (s.openCapture now).longPending = s.longPending := rfl
@[simp] theorem State.openCapture_qMem (s : State) (now : Nat) : (s.openCapture now).qMem = s.qMem := rfl
@[simp] theorem State.openCapture_qWr (s : State) (now : Nat) : (s.openCapture now).qWr = s.qWr := rfl
@[simp] theorem State.openCapture_qRd (s : State) (now : Nat) : (s.openCapture now).qRd = s.qRd := rfl
@[simp] theorem State.openCapture_mode (s : State) (now : Nat) : (s.openCapture now).mode = .capture := rfl
@[simp] theorem State.openCapture_progress (s : State) (now : Nat) : (s.openCapture now).progress = 0 := rfl
@[simp] theorem State.openCapture_frame (s : State) (now : Nat) : (s.openCapture now).frame = s.frame := rfl
@[simp] theorem State.openCapture_count (s : State) (now : Nat) : (s.openCapture now).count = 0 := rfl
@[simp] theorem State.openCapture_capStart (s : State) (now : Nat) : (s.openCapture now).capStart = now := rfl
@[simp] theorem State.openCapture_useCelsius (s : State) (now : Nat) : (s.openCapture now).useCelsius = s.useCelsius := rfl
@[simp] theorem State.openCapture_slotId (s : State) (now : Nat) : (s.openCapture now).slotId = s.slotId := rfl
@[simp] theorem State.openCapture_slotTemp (s : State) (now : Nat) : (s.openCapture now).slotTemp = s.slotTemp := rfl
@[simp] theorem State.openCapture_slotUnit (s : State) (now : Nat) : (s.openCapture now).slotUnit = s.slotUnit := rfl
@[simp] theorem State.openCapture_readingPending (s : State) (now : Nat) : (s.openCapture now).readingPending = s.readingPending := rfl
@[simp] theorem State.openCapture_cap (s : State) (now : Nat) : (s.openCapture now).cap = s.cap := rfl
@[simp] theorem State.openCapture_tsw (s : State) (now : Nat) : (s.openCapture now).tsw = s.tsw := rfl
@[simp] theorem State.openCapture_resets (s : State) (now : Nat) : (s.openCapture now).resets = s.resets := rfl
@[simp] theorem State.openCapture_inbox (s : State) (now : Nat) : (s.openCapture now).inbox = s.inbox := rfl
@[simp] theorem State.openCapture_response (s : State) (now : Nat) : (s.openCapture now).response = s.response := rfl
@[simp] theorem State.openCapture_trace (s : State) (now : Nat) : (s.openCapture now).trace = s.trace := rfl

/-! The fields after the fill count (R174). -/
@[simp] theorem State.setCount_lastEdgeValid (s : State) (c : Fin 36) : (s.setCount c).lastEdgeValid = s.lastEdgeValid := rfl
@[simp] theorem State.setCount_lastEdgeTime (s : State) (c : Fin 36) : (s.setCount c).lastEdgeTime = s.lastEdgeTime := rfl
@[simp] theorem State.setCount_shortPending (s : State) (c : Fin 36) : (s.setCount c).shortPending = s.shortPending := rfl
@[simp] theorem State.setCount_longPending (s : State) (c : Fin 36) : (s.setCount c).longPending = s.longPending := rfl
@[simp] theorem State.setCount_qMem (s : State) (c : Fin 36) : (s.setCount c).qMem = s.qMem := rfl
@[simp] theorem State.setCount_qWr (s : State) (c : Fin 36) : (s.setCount c).qWr = s.qWr := rfl
@[simp] theorem State.setCount_qRd (s : State) (c : Fin 36) : (s.setCount c).qRd = s.qRd := rfl
@[simp] theorem State.setCount_mode (s : State) (c : Fin 36) : (s.setCount c).mode = s.mode := rfl
@[simp] theorem State.setCount_progress (s : State) (c : Fin 36) : (s.setCount c).progress = s.progress := rfl
@[simp] theorem State.setCount_frame (s : State) (c : Fin 36) : (s.setCount c).frame = s.frame := rfl
@[simp] theorem State.setCount_count (s : State) (c : Fin 36) : (s.setCount c).count = c := rfl
@[simp] theorem State.setCount_capStart (s : State) (c : Fin 36) : (s.setCount c).capStart = s.capStart := rfl
@[simp] theorem State.setCount_useCelsius (s : State) (c : Fin 36) : (s.setCount c).useCelsius = s.useCelsius := rfl
@[simp] theorem State.setCount_slotId (s : State) (c : Fin 36) : (s.setCount c).slotId = s.slotId := rfl
@[simp] theorem State.setCount_slotTemp (s : State) (c : Fin 36) : (s.setCount c).slotTemp = s.slotTemp := rfl
@[simp] theorem State.setCount_slotUnit (s : State) (c : Fin 36) : (s.setCount c).slotUnit = s.slotUnit := rfl
@[simp] theorem State.setCount_readingPending (s : State) (c : Fin 36) : (s.setCount c).readingPending = s.readingPending := rfl
@[simp] theorem State.setCount_cap (s : State) (c : Fin 36) : (s.setCount c).cap = s.cap := rfl
@[simp] theorem State.setCount_tsw (s : State) (c : Fin 36) : (s.setCount c).tsw = s.tsw := rfl
@[simp] theorem State.setCount_resets (s : State) (c : Fin 36) : (s.setCount c).resets = s.resets := rfl
@[simp] theorem State.setCount_inbox (s : State) (c : Fin 36) : (s.setCount c).inbox = s.inbox := rfl
@[simp] theorem State.setCount_response (s : State) (c : Fin 36) : (s.setCount c).response = s.response := rfl
@[simp] theorem State.setCount_trace (s : State) (c : Fin 36) : (s.setCount c).trace = s.trace := rfl

/-! The fields after the end of a capture (R175, R176). -/
@[simp] theorem State.closeCapture_lastEdgeValid (s : State) : s.closeCapture.lastEdgeValid = s.lastEdgeValid := rfl
@[simp] theorem State.closeCapture_lastEdgeTime (s : State) : s.closeCapture.lastEdgeTime = s.lastEdgeTime := rfl
@[simp] theorem State.closeCapture_shortPending (s : State) : s.closeCapture.shortPending = s.shortPending := rfl
@[simp] theorem State.closeCapture_longPending (s : State) : s.closeCapture.longPending = s.longPending := rfl
@[simp] theorem State.closeCapture_qMem (s : State) : s.closeCapture.qMem = s.qMem := rfl
@[simp] theorem State.closeCapture_qWr (s : State) : s.closeCapture.qWr = s.qWr := rfl
@[simp] theorem State.closeCapture_qRd (s : State) : s.closeCapture.qRd = s.qRd := rfl
@[simp] theorem State.closeCapture_mode (s : State) : s.closeCapture.mode = .search := rfl
@[simp] theorem State.closeCapture_progress (s : State) : s.closeCapture.progress = s.progress := rfl
@[simp] theorem State.closeCapture_frame (s : State) : s.closeCapture.frame = s.frame := rfl
@[simp] theorem State.closeCapture_count (s : State) : s.closeCapture.count = 0 := rfl
@[simp] theorem State.closeCapture_capStart (s : State) : s.closeCapture.capStart = s.capStart := rfl
@[simp] theorem State.closeCapture_useCelsius (s : State) : s.closeCapture.useCelsius = s.useCelsius := rfl
@[simp] theorem State.closeCapture_slotId (s : State) : s.closeCapture.slotId = s.slotId := rfl
@[simp] theorem State.closeCapture_slotTemp (s : State) : s.closeCapture.slotTemp = s.slotTemp := rfl
@[simp] theorem State.closeCapture_slotUnit (s : State) : s.closeCapture.slotUnit = s.slotUnit := rfl
@[simp] theorem State.closeCapture_readingPending (s : State) : s.closeCapture.readingPending = s.readingPending := rfl
@[simp] theorem State.closeCapture_cap (s : State) : s.closeCapture.cap = s.cap := rfl
@[simp] theorem State.closeCapture_tsw (s : State) : s.closeCapture.tsw = s.tsw := rfl
@[simp] theorem State.closeCapture_resets (s : State) : s.closeCapture.resets = s.resets := rfl
@[simp] theorem State.closeCapture_inbox (s : State) : s.closeCapture.inbox = s.inbox := rfl
@[simp] theorem State.closeCapture_response (s : State) : s.closeCapture.response = s.response := rfl
@[simp] theorem State.closeCapture_trace (s : State) : s.closeCapture.trace = s.trace := rfl

/-! The fields after the reading register (R208). -/
@[simp] theorem State.writeSlot_lastEdgeValid (s : State) (d : BitVec 7) (x : BitVec 19) (u : Scale) : (s.writeSlot d x u).lastEdgeValid = s.lastEdgeValid := rfl
@[simp] theorem State.writeSlot_lastEdgeTime (s : State) (d : BitVec 7) (x : BitVec 19) (u : Scale) : (s.writeSlot d x u).lastEdgeTime = s.lastEdgeTime := rfl
@[simp] theorem State.writeSlot_shortPending (s : State) (d : BitVec 7) (x : BitVec 19) (u : Scale) : (s.writeSlot d x u).shortPending = s.shortPending := rfl
@[simp] theorem State.writeSlot_longPending (s : State) (d : BitVec 7) (x : BitVec 19) (u : Scale) : (s.writeSlot d x u).longPending = s.longPending := rfl
@[simp] theorem State.writeSlot_qMem (s : State) (d : BitVec 7) (x : BitVec 19) (u : Scale) : (s.writeSlot d x u).qMem = s.qMem := rfl
@[simp] theorem State.writeSlot_qWr (s : State) (d : BitVec 7) (x : BitVec 19) (u : Scale) : (s.writeSlot d x u).qWr = s.qWr := rfl
@[simp] theorem State.writeSlot_qRd (s : State) (d : BitVec 7) (x : BitVec 19) (u : Scale) : (s.writeSlot d x u).qRd = s.qRd := rfl
@[simp] theorem State.writeSlot_mode (s : State) (d : BitVec 7) (x : BitVec 19) (u : Scale) : (s.writeSlot d x u).mode = s.mode := rfl
@[simp] theorem State.writeSlot_progress (s : State) (d : BitVec 7) (x : BitVec 19) (u : Scale) : (s.writeSlot d x u).progress = s.progress := rfl
@[simp] theorem State.writeSlot_frame (s : State) (d : BitVec 7) (x : BitVec 19) (u : Scale) : (s.writeSlot d x u).frame = s.frame := rfl
@[simp] theorem State.writeSlot_count (s : State) (d : BitVec 7) (x : BitVec 19) (u : Scale) : (s.writeSlot d x u).count = s.count := rfl
@[simp] theorem State.writeSlot_capStart (s : State) (d : BitVec 7) (x : BitVec 19) (u : Scale) : (s.writeSlot d x u).capStart = s.capStart := rfl
@[simp] theorem State.writeSlot_useCelsius (s : State) (d : BitVec 7) (x : BitVec 19) (u : Scale) : (s.writeSlot d x u).useCelsius = s.useCelsius := rfl
@[simp] theorem State.writeSlot_slotId (s : State) (d : BitVec 7) (x : BitVec 19) (u : Scale) : (s.writeSlot d x u).slotId = d := rfl
@[simp] theorem State.writeSlot_slotTemp (s : State) (d : BitVec 7) (x : BitVec 19) (u : Scale) : (s.writeSlot d x u).slotTemp = x := rfl
@[simp] theorem State.writeSlot_slotUnit (s : State) (d : BitVec 7) (x : BitVec 19) (u : Scale) : (s.writeSlot d x u).slotUnit = u := rfl
@[simp] theorem State.writeSlot_readingPending (s : State) (d : BitVec 7) (x : BitVec 19) (u : Scale) : (s.writeSlot d x u).readingPending = true := rfl
@[simp] theorem State.writeSlot_cap (s : State) (d : BitVec 7) (x : BitVec 19) (u : Scale) : (s.writeSlot d x u).cap = s.cap := rfl
@[simp] theorem State.writeSlot_tsw (s : State) (d : BitVec 7) (x : BitVec 19) (u : Scale) : (s.writeSlot d x u).tsw = s.tsw := rfl
@[simp] theorem State.writeSlot_resets (s : State) (d : BitVec 7) (x : BitVec 19) (u : Scale) : (s.writeSlot d x u).resets = s.resets := rfl
@[simp] theorem State.writeSlot_inbox (s : State) (d : BitVec 7) (x : BitVec 19) (u : Scale) : (s.writeSlot d x u).inbox = s.inbox := rfl
@[simp] theorem State.writeSlot_response (s : State) (d : BitVec 7) (x : BitVec 19) (u : Scale) : (s.writeSlot d x u).response = s.response := rfl
@[simp] theorem State.writeSlot_trace (s : State) (d : BitVec 7) (x : BitVec 19) (u : Scale) : (s.writeSlot d x u).trace = s.trace := rfl

/-! The fields after `publish` (R208). -/
@[simp] theorem State.publish_lastEdgeValid (s : State) (F : Frame) : (s.publish F).lastEdgeValid = s.lastEdgeValid := rfl
@[simp] theorem State.publish_lastEdgeTime (s : State) (F : Frame) : (s.publish F).lastEdgeTime = s.lastEdgeTime := rfl
@[simp] theorem State.publish_shortPending (s : State) (F : Frame) : (s.publish F).shortPending = s.shortPending := rfl
@[simp] theorem State.publish_longPending (s : State) (F : Frame) : (s.publish F).longPending = s.longPending := rfl
@[simp] theorem State.publish_qMem (s : State) (F : Frame) : (s.publish F).qMem = s.qMem := rfl
@[simp] theorem State.publish_qWr (s : State) (F : Frame) : (s.publish F).qWr = s.qWr := rfl
@[simp] theorem State.publish_qRd (s : State) (F : Frame) : (s.publish F).qRd = s.qRd := rfl
@[simp] theorem State.publish_mode (s : State) (F : Frame) : (s.publish F).mode = s.mode := rfl
@[simp] theorem State.publish_progress (s : State) (F : Frame) : (s.publish F).progress = s.progress := rfl
@[simp] theorem State.publish_frame (s : State) (F : Frame) : (s.publish F).frame = s.frame := rfl
@[simp] theorem State.publish_count (s : State) (F : Frame) : (s.publish F).count = s.count := rfl
@[simp] theorem State.publish_capStart (s : State) (F : Frame) : (s.publish F).capStart = s.capStart := rfl
@[simp] theorem State.publish_useCelsius (s : State) (F : Frame) : (s.publish F).useCelsius = s.useCelsius := rfl
@[simp] theorem State.publish_slotId (s : State) (F : Frame) : (s.publish F).slotId = BitVec.ofNat 7 (sensorId F) := rfl
@[simp] theorem State.publish_slotTemp (s : State) (F : Frame) : (s.publish F).slotTemp = BitVec.ofInt 19 (publishedTemp s.useCelsius F) := rfl
@[simp] theorem State.publish_slotUnit (s : State) (F : Frame) : (s.publish F).slotUnit = Scale.ofBit s.useCelsius := rfl
@[simp] theorem State.publish_readingPending (s : State) (F : Frame) : (s.publish F).readingPending = true := rfl
@[simp] theorem State.publish_cap (s : State) (F : Frame) : (s.publish F).cap = s.cap := rfl
@[simp] theorem State.publish_tsw (s : State) (F : Frame) : (s.publish F).tsw = s.tsw := rfl
@[simp] theorem State.publish_resets (s : State) (F : Frame) : (s.publish F).resets = s.resets := rfl
@[simp] theorem State.publish_inbox (s : State) (F : Frame) : (s.publish F).inbox = s.inbox := rfl
@[simp] theorem State.publish_response (s : State) (F : Frame) : (s.publish F).response = s.response := rfl
@[simp] theorem State.publish_trace (s : State) (F : Frame) : (s.publish F).trace = s.trace := rfl

/-! The fields after the pending flag (R224). -/
@[simp] theorem State.clearPending_lastEdgeValid (s : State) : s.clearPending.lastEdgeValid = s.lastEdgeValid := rfl
@[simp] theorem State.clearPending_lastEdgeTime (s : State) : s.clearPending.lastEdgeTime = s.lastEdgeTime := rfl
@[simp] theorem State.clearPending_shortPending (s : State) : s.clearPending.shortPending = s.shortPending := rfl
@[simp] theorem State.clearPending_longPending (s : State) : s.clearPending.longPending = s.longPending := rfl
@[simp] theorem State.clearPending_qMem (s : State) : s.clearPending.qMem = s.qMem := rfl
@[simp] theorem State.clearPending_qWr (s : State) : s.clearPending.qWr = s.qWr := rfl
@[simp] theorem State.clearPending_qRd (s : State) : s.clearPending.qRd = s.qRd := rfl
@[simp] theorem State.clearPending_mode (s : State) : s.clearPending.mode = s.mode := rfl
@[simp] theorem State.clearPending_progress (s : State) : s.clearPending.progress = s.progress := rfl
@[simp] theorem State.clearPending_frame (s : State) : s.clearPending.frame = s.frame := rfl
@[simp] theorem State.clearPending_count (s : State) : s.clearPending.count = s.count := rfl
@[simp] theorem State.clearPending_capStart (s : State) : s.clearPending.capStart = s.capStart := rfl
@[simp] theorem State.clearPending_useCelsius (s : State) : s.clearPending.useCelsius = s.useCelsius := rfl
@[simp] theorem State.clearPending_slotId (s : State) : s.clearPending.slotId = s.slotId := rfl
@[simp] theorem State.clearPending_slotTemp (s : State) : s.clearPending.slotTemp = s.slotTemp := rfl
@[simp] theorem State.clearPending_slotUnit (s : State) : s.clearPending.slotUnit = s.slotUnit := rfl
@[simp] theorem State.clearPending_readingPending (s : State) : s.clearPending.readingPending = false := rfl
@[simp] theorem State.clearPending_cap (s : State) : s.clearPending.cap = s.cap := rfl
@[simp] theorem State.clearPending_tsw (s : State) : s.clearPending.tsw = s.tsw := rfl
@[simp] theorem State.clearPending_resets (s : State) : s.clearPending.resets = s.resets := rfl
@[simp] theorem State.clearPending_inbox (s : State) : s.clearPending.inbox = s.inbox := rfl
@[simp] theorem State.clearPending_response (s : State) : s.clearPending.response = s.response := rfl
@[simp] theorem State.clearPending_trace (s : State) : s.clearPending.trace = s.trace := rfl

/-! The fields after the unit selection (R226). -/
@[simp] theorem State.setUseCelsius_lastEdgeValid (s : State) (u : Bool) : (s.setUseCelsius u).lastEdgeValid = s.lastEdgeValid := rfl
@[simp] theorem State.setUseCelsius_lastEdgeTime (s : State) (u : Bool) : (s.setUseCelsius u).lastEdgeTime = s.lastEdgeTime := rfl
@[simp] theorem State.setUseCelsius_shortPending (s : State) (u : Bool) : (s.setUseCelsius u).shortPending = s.shortPending := rfl
@[simp] theorem State.setUseCelsius_longPending (s : State) (u : Bool) : (s.setUseCelsius u).longPending = s.longPending := rfl
@[simp] theorem State.setUseCelsius_qMem (s : State) (u : Bool) : (s.setUseCelsius u).qMem = s.qMem := rfl
@[simp] theorem State.setUseCelsius_qWr (s : State) (u : Bool) : (s.setUseCelsius u).qWr = s.qWr := rfl
@[simp] theorem State.setUseCelsius_qRd (s : State) (u : Bool) : (s.setUseCelsius u).qRd = s.qRd := rfl
@[simp] theorem State.setUseCelsius_mode (s : State) (u : Bool) : (s.setUseCelsius u).mode = s.mode := rfl
@[simp] theorem State.setUseCelsius_progress (s : State) (u : Bool) : (s.setUseCelsius u).progress = s.progress := rfl
@[simp] theorem State.setUseCelsius_frame (s : State) (u : Bool) : (s.setUseCelsius u).frame = s.frame := rfl
@[simp] theorem State.setUseCelsius_count (s : State) (u : Bool) : (s.setUseCelsius u).count = s.count := rfl
@[simp] theorem State.setUseCelsius_capStart (s : State) (u : Bool) : (s.setUseCelsius u).capStart = s.capStart := rfl
@[simp] theorem State.setUseCelsius_useCelsius (s : State) (u : Bool) : (s.setUseCelsius u).useCelsius = u := rfl
@[simp] theorem State.setUseCelsius_slotId (s : State) (u : Bool) : (s.setUseCelsius u).slotId = s.slotId := rfl
@[simp] theorem State.setUseCelsius_slotTemp (s : State) (u : Bool) : (s.setUseCelsius u).slotTemp = s.slotTemp := rfl
@[simp] theorem State.setUseCelsius_slotUnit (s : State) (u : Bool) : (s.setUseCelsius u).slotUnit = s.slotUnit := rfl
@[simp] theorem State.setUseCelsius_readingPending (s : State) (u : Bool) : (s.setUseCelsius u).readingPending = s.readingPending := rfl
@[simp] theorem State.setUseCelsius_cap (s : State) (u : Bool) : (s.setUseCelsius u).cap = s.cap := rfl
@[simp] theorem State.setUseCelsius_tsw (s : State) (u : Bool) : (s.setUseCelsius u).tsw = s.tsw := rfl
@[simp] theorem State.setUseCelsius_resets (s : State) (u : Bool) : (s.setUseCelsius u).resets = s.resets := rfl
@[simp] theorem State.setUseCelsius_inbox (s : State) (u : Bool) : (s.setUseCelsius u).inbox = s.inbox := rfl
@[simp] theorem State.setUseCelsius_response (s : State) (u : Bool) : (s.setUseCelsius u).response = s.response := rfl
@[simp] theorem State.setUseCelsius_trace (s : State) (u : Bool) : (s.setUseCelsius u).trace = s.trace := rfl

/-! The fields after the operations waiting (R7). -/
@[simp] theorem State.setInbox_lastEdgeValid (s : State) (ws : List Nat) : (s.setInbox ws).lastEdgeValid = s.lastEdgeValid := rfl
@[simp] theorem State.setInbox_lastEdgeTime (s : State) (ws : List Nat) : (s.setInbox ws).lastEdgeTime = s.lastEdgeTime := rfl
@[simp] theorem State.setInbox_shortPending (s : State) (ws : List Nat) : (s.setInbox ws).shortPending = s.shortPending := rfl
@[simp] theorem State.setInbox_longPending (s : State) (ws : List Nat) : (s.setInbox ws).longPending = s.longPending := rfl
@[simp] theorem State.setInbox_qMem (s : State) (ws : List Nat) : (s.setInbox ws).qMem = s.qMem := rfl
@[simp] theorem State.setInbox_qWr (s : State) (ws : List Nat) : (s.setInbox ws).qWr = s.qWr := rfl
@[simp] theorem State.setInbox_qRd (s : State) (ws : List Nat) : (s.setInbox ws).qRd = s.qRd := rfl
@[simp] theorem State.setInbox_mode (s : State) (ws : List Nat) : (s.setInbox ws).mode = s.mode := rfl
@[simp] theorem State.setInbox_progress (s : State) (ws : List Nat) : (s.setInbox ws).progress = s.progress := rfl
@[simp] theorem State.setInbox_frame (s : State) (ws : List Nat) : (s.setInbox ws).frame = s.frame := rfl
@[simp] theorem State.setInbox_count (s : State) (ws : List Nat) : (s.setInbox ws).count = s.count := rfl
@[simp] theorem State.setInbox_capStart (s : State) (ws : List Nat) : (s.setInbox ws).capStart = s.capStart := rfl
@[simp] theorem State.setInbox_useCelsius (s : State) (ws : List Nat) : (s.setInbox ws).useCelsius = s.useCelsius := rfl
@[simp] theorem State.setInbox_slotId (s : State) (ws : List Nat) : (s.setInbox ws).slotId = s.slotId := rfl
@[simp] theorem State.setInbox_slotTemp (s : State) (ws : List Nat) : (s.setInbox ws).slotTemp = s.slotTemp := rfl
@[simp] theorem State.setInbox_slotUnit (s : State) (ws : List Nat) : (s.setInbox ws).slotUnit = s.slotUnit := rfl
@[simp] theorem State.setInbox_readingPending (s : State) (ws : List Nat) : (s.setInbox ws).readingPending = s.readingPending := rfl
@[simp] theorem State.setInbox_cap (s : State) (ws : List Nat) : (s.setInbox ws).cap = s.cap := rfl
@[simp] theorem State.setInbox_tsw (s : State) (ws : List Nat) : (s.setInbox ws).tsw = s.tsw := rfl
@[simp] theorem State.setInbox_resets (s : State) (ws : List Nat) : (s.setInbox ws).resets = s.resets := rfl
@[simp] theorem State.setInbox_inbox (s : State) (ws : List Nat) : (s.setInbox ws).inbox = ws := rfl
@[simp] theorem State.setInbox_response (s : State) (ws : List Nat) : (s.setInbox ws).response = s.response := rfl
@[simp] theorem State.setInbox_trace (s : State) (ws : List Nat) : (s.setInbox ws).trace = s.trace := rfl

/-! The fields after RESET (R260). -/
@[simp] theorem State.resetBlock_lastEdgeValid (s : State) : s.resetBlock.lastEdgeValid = false := rfl
@[simp] theorem State.resetBlock_lastEdgeTime (s : State) : s.resetBlock.lastEdgeTime = (Config.unspecLastEdgeTime (s.resets + 1) s.tsw).toNat := rfl
@[simp] theorem State.resetBlock_shortPending (s : State) : s.resetBlock.shortPending = false := rfl
@[simp] theorem State.resetBlock_longPending (s : State) : s.resetBlock.longPending = false := rfl
@[simp] theorem State.resetBlock_qMem (s : State) : s.resetBlock.qMem = [] := rfl
@[simp] theorem State.resetBlock_qWr (s : State) : s.resetBlock.qWr = 0 := rfl
@[simp] theorem State.resetBlock_qRd (s : State) : s.resetBlock.qRd = 0 := rfl
@[simp] theorem State.resetBlock_mode (s : State) : s.resetBlock.mode = .search := rfl
@[simp] theorem State.resetBlock_progress (s : State) : s.resetBlock.progress = 0 := rfl
@[simp] theorem State.resetBlock_frame (s : State) : s.resetBlock.frame = [] := rfl
@[simp] theorem State.resetBlock_count (s : State) : s.resetBlock.count = 0 := rfl
@[simp] theorem State.resetBlock_capStart (s : State) : s.resetBlock.capStart = (Config.unspecCapStart (s.resets + 1) s.tsw).toNat := rfl
@[simp] theorem State.resetBlock_useCelsius (s : State) : s.resetBlock.useCelsius = false := rfl
@[simp] theorem State.resetBlock_slotId (s : State) : s.resetBlock.slotId = Config.unspecSlotId (s.resets + 1) := rfl
@[simp] theorem State.resetBlock_slotTemp (s : State) : s.resetBlock.slotTemp = Config.unspecSlotTemp (s.resets + 1) := rfl
@[simp] theorem State.resetBlock_slotUnit (s : State) : s.resetBlock.slotUnit = Scale.ofBit (Config.unspecSlotUnit (s.resets + 1)) := rfl
@[simp] theorem State.resetBlock_readingPending (s : State) : s.resetBlock.readingPending = false := rfl
@[simp] theorem State.resetBlock_cap (s : State) : s.resetBlock.cap = s.cap := rfl
@[simp] theorem State.resetBlock_tsw (s : State) : s.resetBlock.tsw = s.tsw := rfl
@[simp] theorem State.resetBlock_resets (s : State) : s.resetBlock.resets = s.resets + 1 := rfl
@[simp] theorem State.resetBlock_inbox (s : State) : s.resetBlock.inbox = s.inbox := rfl
@[simp] theorem State.resetBlock_response (s : State) : s.resetBlock.response = none := rfl
@[simp] theorem State.resetBlock_trace (s : State) : s.resetBlock.trace = none := rfl

end Sys2Proof.Machine
end

