-- ==== Sys2Proof/Laws/Memory.lean ====
section
/-! SUPPORT. The laws of the one-bit memories: a read after a write, the canonical form, and what the updates of the
state do to the reads of a cell. -/

namespace Sys2Proof.Machine

/-- A read after a write, at any cell. -/
theorem Memory.lookup_write (m : Memory) (i j : Nat) (b : Bool) :
    (Memory.write m i b).lookup j = if i = j then some b else m.lookup j := by
  induction m with
  | nil => rfl
  | cons p m ih =>
    obtain ⟨k, c⟩ := p
    simp only [Memory.write]
    split_ifs with h1 h2 h3 h3 h3 <;> simp_all [Memory.lookup]
    omega

@[simp] theorem Memory.lookup_write_same (m : Memory) (i : Nat) (b : Bool) :
    (Memory.write m i b).lookup i = some b := by simp [Memory.lookup_write]

theorem Memory.lookup_write_other (m : Memory) {i j : Nat} (b : Bool) (h : j ≠ i) :
    (Memory.write m i b).lookup j = m.lookup j := by simp [Memory.lookup_write, Ne.symm h]

/-- A write never makes a written cell unwritten. -/
theorem Memory.isSome_lookup_write (m : Memory) (i j : Nat) (b : Bool) (h : (m.lookup j).isSome = true) :
    ((Memory.write m i b).lookup j).isSome = true := by
  rw [Memory.lookup_write]; split <;> simp [h]

/-- What a write lists: the cell written, and cells listed before. -/
theorem Memory.mem_write {m : Memory} {i : Nat} {b : Bool} {p : Nat × Bool} (h : p ∈ Memory.write m i b) :
    p = (i, b) ∨ p ∈ m := by
  induction m with
  | nil => simpa [Memory.write] using h
  | cons q m ih =>
    obtain ⟨k, c⟩ := q
    simp only [Memory.write] at h
    split_ifs at h <;> simp only [List.mem_cons] at h ⊢
    · tauto
    · tauto
    · rcases h with h | h
      · tauto
      · rcases ih h with h | h <;> tauto

/-- A write inside the index space keeps the canonical form. -/
theorem Memory.wf_write {size : Nat} {m : Memory} {i : Nat} (b : Bool) (h : Memory.wf size m) (hi : i < size) :
    Memory.wf size (Memory.write m i b) := by
  refine ⟨?_, fun p hp => ?_⟩
  · obtain ⟨hs, -⟩ := h
    induction m with
    | nil => simp [Memory.write]
    | cons q m ih =>
      obtain ⟨k, c⟩ := q
      obtain ⟨hq, hm⟩ := List.pairwise_cons.mp hs
      simp only [Memory.write]
      split_ifs with h1 h2
      · refine List.pairwise_cons.mpr ⟨fun p hp => ?_, hs⟩
        rcases List.mem_cons.mp hp with rfl | hp
        · exact h1
        · exact h1.trans (hq p hp)
      · exact List.pairwise_cons.mpr ⟨fun p hp => h2 ▸ hq p hp, hm⟩
      · refine List.pairwise_cons.mpr ⟨fun p hp => ?_, ih hm⟩
        rcases Memory.mem_write hp with rfl | hp
        · show k < i; omega
        · exact hq p hp
  · rcases Memory.mem_write hp with rfl | hp
    · exact hi
    · exact h.2 p hp

/-- A memory with nothing listed is canonical. -/
theorem Memory.wf_nil (size : Nat) : Memory.wf size [] := by simp [Memory.wf]

/-- A cell below every listed cell is unwritten. -/
theorem Memory.lookup_eq_none {m : Memory} {i : Nat} (h : ∀ p ∈ m, i < p.1) : m.lookup i = none := by
  induction m with
  | nil => rfl
  | cons q m ih =>
    have := h q List.mem_cons_self
    rw [Memory.lookup, if_neg (by omega), ih fun p hp => h p (List.mem_cons_of_mem _ hp)]

/-- Canonical memories with the same cells are equal. -/
theorem Memory.ext_lookup {size : Nat} {m n : Memory} (hm : Memory.wf size m) (hn : Memory.wf size n)
    (h : ∀ i, m.lookup i = n.lookup i) : m = n := by
  obtain ⟨hm, -⟩ := hm
  obtain ⟨hn, -⟩ := hn
  induction m generalizing n with
  | nil =>
    cases n with
    | nil => rfl
    | cons q n => have := h q.1; simp [Memory.lookup] at this
  | cons p m ih =>
    cases n with
    | nil => have := h p.1; simp [Memory.lookup] at this
    | cons q n =>
      obtain ⟨i, b⟩ := p
      obtain ⟨j, c⟩ := q
      obtain ⟨hp, hm'⟩ := List.pairwise_cons.mp hm
      obtain ⟨hq, hn'⟩ := List.pairwise_cons.mp hn
      rcases Nat.lt_trichotomy i j with hij | rfl | hij
      · have h1 := h i
        rw [Memory.lookup_eq_none (m := (j, c) :: n) (i := i)] at h1
        · simp [Memory.lookup] at h1
        · intro r hr
          rcases List.mem_cons.mp hr with rfl | hr
          · exact hij
          · exact hij.trans (hq r hr)
      · have hb : b = c := by simpa [Memory.lookup] using h i
        subst hb
        rw [ih (n := n) (fun k => ?_) hm' hn']
        by_cases hk : i = k
        · subst hk; rw [Memory.lookup_eq_none hp, Memory.lookup_eq_none hq]
        · simpa [Memory.lookup, hk] using h k
      · have h1 := h j
        rw [Memory.lookup_eq_none (m := (i, b) :: m) (i := j)] at h1
        · simp [Memory.lookup] at h1
        · intro r hr
          rcases List.mem_cons.mp hr with rfl | hr
          · exact hij
          · exact hij.trans (hp r hr)

/-! Reads of a cell of the state. -/

/-- A read of the queue depends on the queue's storage and on the draw alone. -/
theorem State.qRead_congr {s t : State} (hm : t.qMem = s.qMem) (hr : t.resets = s.resets) (i : Nat) :
    t.qRead i = s.qRead i := by simp [State.qRead, hm, hr]

/-- A read of the frame depends on the frame's storage and on the draw alone. -/
theorem State.fRead_congr {s t : State} (hm : t.frame = s.frame) (hr : t.resets = s.resets) (i : Nat) :
    t.fRead i = s.fRead i := by simp [State.fRead, hm, hr]

/-- What a push leaves in each cell of the queue (R141). -/
theorem State.qRead_push (s : State) (b : Bool) (i : Nat) :
    (s.push b).qRead i = if s.qWr = i then b else s.qRead i := by
  simp only [State.qRead, State.push_qMem, State.push_resets, Memory.lookup_write]
  split <;> simp

/-- What a frame write leaves in each cell of the frame (R173). -/
theorem State.fRead_fWrite (s : State) (i j : Nat) (b : Bool) :
    (s.fWrite i b).fRead j = if i = j then b else s.fRead j := by
  simp only [State.fRead, State.fWrite_frame, State.fWrite_resets, Memory.lookup_write]
  split <;> simp

/-- Bit `i` of the frame as a number is cell `i` (R70). -/
theorem State.frameImage_getMsbD (s : State) {i : Nat} (h : i < 36) : s.frameImage.getMsbD i = s.fRead i := by
  simp [State.frameImage, BitVec.getMsbD_setWidth, BitVec.getMsbD_ofBoolListBE, h]

/-- Frames with the same 36 bits are the same number (R70). -/
theorem frame_ext {F G : Frame} (h : ∀ i, i < 36 → F.getMsbD i = G.getMsbD i) : F = G :=
  BitVec.eq_of_getMsbD_eq h

/-! The pop (R143, R147). -/

theorem State.pop_some {s : State} (h : s.qRd ≠ s.qWr) : s.pop = some (s.qRead s.qRd, s.advanceRead) := by
  simp [State.pop, State.hasPending, h]

theorem State.pop_none {s : State} (h : s.qRd = s.qWr) : s.pop = none := by simp [State.pop, State.hasPending, h]

/-! The cursors and the pending count (R140). -/

/-- A cursor step stays inside the queue (R71). -/
theorem State.nextCursor_lt (s : State) (c : Nat) (h : 0 < s.cap) : s.nextCursor c < s.cap := Nat.mod_lt _ h

/-- The step of a cursor inside the queue, without the remainder. -/
theorem State.nextCursor_eq (s : State) {c : Nat} (h : c < s.cap) :
    s.nextCursor c = if c + 1 = s.cap then 0 else c + 1 := by
  unfold State.nextCursor
  split
  · next e => rw [e, Nat.mod_self]
  · exact Nat.mod_eq_of_lt (by omega)

/-- The pending count of cursors inside the queue, without the remainder. -/
theorem State.pend_eq {s : State} (hw : s.qWr < s.cap) (hr : s.qRd < s.cap) :
    s.pend = if s.qRd ≤ s.qWr then s.qWr - s.qRd else s.qWr + s.cap - s.qRd := by
  unfold State.pend
  split
  · rw [show s.qWr + s.cap - s.qRd = (s.qWr - s.qRd) + s.cap by omega, Nat.add_mod_right]
    exact Nat.mod_eq_of_lt (by omega)
  · exact Nat.mod_eq_of_lt (by omega)

/-- `hasPending()` in words (R144). -/
theorem State.hasPending_iff (s : State) : s.hasPending = true ↔ s.qRd ≠ s.qWr := by simp [State.hasPending]

theorem State.hasPending_false_iff (s : State) : s.hasPending = false ↔ s.qRd = s.qWr := by
  simp [State.hasPending]

end Sys2Proof.Machine
end

