-- ==== Sys2Proof/Laws/Decoder.lean ====
section
/-! SUPPORT. What DSTEP can do: one case per row of the transition table of R180. -/

namespace Sys2Proof.Machine

/-- The rows of R180 in SEARCH mode. -/
theorem decoderStep_search (now : Nat) {s : State} (hm : s.mode = .search) :
    decoderStep now s =
      if s.qRd = s.qWr then s.emit none (some .dIdle)
      else if s.qRead s.qRd = preambleBit s.progress then
        if s.progress = 7 then (s.advanceRead.openCapture now).emit none (some .dMatch)
        else (s.advanceRead.setProgress (s.progress + 1)).emit none (some .dAdv)
      else (s.advanceRead.setProgress 0).emit none (some .dMiss) := by
  by_cases h : s.qRd = s.qWr
  · simp [decoderStep, hm, searchStep, State.pop_none h, h]
  · simp only [decoderStep, hm, searchStep, State.pop_some h, h, if_false, recognize, State.advanceRead_progress]; rfl

/-- The rows of R180 in CAPTURE mode. -/
theorem decoderStep_capture (now : Nat) {s : State} (hm : s.mode = .capture) :
    decoderStep now s =
      if s.qRd = s.qWr then
        if s.windowElapsed now then abandonFrame s else s.emit none (some .dWait)
      else if s.count = 35 then completeFrame (s.advanceRead.fWrite s.count (s.qRead s.qRd))
      else if s.windowElapsed now then abandonFrame (s.advanceRead.fWrite s.count (s.qRead s.qRd))
      else ((s.advanceRead.fWrite s.count (s.qRead s.qRd)).setCount (s.count + 1)).emit none (some .dFbit) := by
  have hw : s.advanceRead.windowElapsed now = s.windowElapsed now := rfl
  by_cases h : s.qRd = s.qWr
  · simp [decoderStep, hm, captureStep, State.pop_none h, h]
  · simp [decoderStep, hm, captureStep, State.pop_some h, h, assemble, hw]

/-- A complete frame ends the capture, with or without a publish (R175). -/
theorem completeFrame_cases (s : State) :
    (checksumOk s.frameImage = true ∧
      completeFrame s = (s.closeCapture.publish s.frameImage).emit none (some .dFrameOk)) ∨
    (checksumOk s.frameImage = false ∧ completeFrame s = s.closeCapture.emit none (some .dFrameBad)) := by
  cases h : checksumOk s.frameImage <;> simp [completeFrame, h]

/-- All that a DSTEP can do (R180), by row. -/
theorem decoderStep_cases (now : Nat) (s : State) :
    (s.mode = .search ∧ s.qRd = s.qWr ∧ decoderStep now s = s.emit none (some .dIdle)) ∨
    (s.mode = .search ∧ s.qRd ≠ s.qWr ∧ s.qRead s.qRd = preambleBit s.progress ∧ s.progress = 7 ∧
      decoderStep now s = (s.advanceRead.openCapture now).emit none (some .dMatch)) ∨
    (s.mode = .search ∧ s.qRd ≠ s.qWr ∧ s.qRead s.qRd = preambleBit s.progress ∧ s.progress ≠ 7 ∧
      decoderStep now s = (s.advanceRead.setProgress (s.progress + 1)).emit none (some .dAdv)) ∨
    (s.mode = .search ∧ s.qRd ≠ s.qWr ∧ s.qRead s.qRd ≠ preambleBit s.progress ∧
      decoderStep now s = (s.advanceRead.setProgress 0).emit none (some .dMiss)) ∨
    (s.mode = .capture ∧ s.qRd = s.qWr ∧ s.windowElapsed now = true ∧ decoderStep now s = abandonFrame s) ∨
    (s.mode = .capture ∧ s.qRd = s.qWr ∧ s.windowElapsed now = false ∧
      decoderStep now s = s.emit none (some .dWait)) ∨
    (s.mode = .capture ∧ s.qRd ≠ s.qWr ∧ s.count = 35 ∧
      decoderStep now s = completeFrame (s.advanceRead.fWrite s.count (s.qRead s.qRd))) ∨
    (s.mode = .capture ∧ s.qRd ≠ s.qWr ∧ s.count ≠ 35 ∧ s.windowElapsed now = true ∧
      decoderStep now s = abandonFrame (s.advanceRead.fWrite s.count (s.qRead s.qRd))) ∨
    (s.mode = .capture ∧ s.qRd ≠ s.qWr ∧ s.count ≠ 35 ∧ s.windowElapsed now = false ∧
      decoderStep now s =
        ((s.advanceRead.fWrite s.count (s.qRead s.qRd)).setCount (s.count + 1)).emit none (some .dFbit)) := by
  cases hm : s.mode with
  | search =>
    rw [decoderStep_search now hm]
    by_cases h1 : s.qRd = s.qWr
    · simp [h1]
    · by_cases h2 : s.qRead s.qRd = preambleBit s.progress
      · by_cases h3 : s.progress = 7 <;> simp_all
      · simp [h1, h2]
  | capture =>
    rw [decoderStep_capture now hm]
    by_cases h1 : s.qRd = s.qWr
    · cases h2 : s.windowElapsed now <;> simp [h1]
    · by_cases h2 : s.count = 35
      · simp [h1, h2]
      · cases h3 : s.windowElapsed now <;> simp [h1, h2]

end Sys2Proof.Machine
end

