-- ==== Sys2Proof/Laws/Edge.lean ====
section
/-! SUPPORT. What EDGE can do: the windows in numbers, and one case per branch of R120. -/

namespace Sys2Proof.Machine

/-! The windows in numbers (R92, R123). -/

theorem inWindow_iff (lo d hi : Nat) : inWindow lo d hi = true ↔ lo < d ∧ d < hi := by simp [inWindow]

theorem inCoarse_iff (d : Nat) : inCoarse d = true ↔ 400 < d ∧ d < 1400 := inWindow_iff 400 d 1400

theorem isShort_iff (d : Nat) : isShort d = true ↔ 400 < d ∧ d < 700 := inWindow_iff 400 d 700

theorem isLong_iff (d : Nat) : isLong d = true ↔ 1100 < d ∧ d < 1500 := inWindow_iff 1100 d 1500

theorem isGap_iff (d : Nat) : isGap d = true ↔ 800 < d ∧ d < 1200 := inWindow_iff 800 d 1200

/-! One equation per branch of R120. -/

theorem classifyEdge_discard (level : Level) {d : Nat} (s : State) (h : ¬(400 < d ∧ d < 1400)) :
    classifyEdge level d s = (s.setPulse false false).emit none (some .eDiscard) := by
  unfold classifyEdge; rw [if_neg (by rwa [inCoarse_iff])]; rfl

theorem classifyEdge_short {d : Nat} (s : State) (h : 400 < d ∧ d < 700) :
    classifyEdge .low d s = (s.setPulse true false).emit none (some .eShort) := by
  unfold classifyEdge; rw [if_pos (by rw [inCoarse_iff]; omega)]
  exact if_pos ((isShort_iff d).mpr h)

theorem classifyEdge_long {d : Nat} (s : State) (h : 1100 < d ∧ d < 1400) :
    classifyEdge .low d s = (s.setPulse false true).emit none (some .eLong) := by
  unfold classifyEdge; rw [if_pos (by rw [inCoarse_iff]; omega)]
  exact (if_neg (by rw [isShort_iff]; omega)).trans (if_pos (by rw [isLong_iff]; omega))

theorem classifyEdge_ambiguous {d : Nat} (s : State) (h : 700 ≤ d ∧ d ≤ 1100) :
    classifyEdge .low d s = (s.setPulse false false).emit none (some .eAmbig) := by
  unfold classifyEdge; rw [if_pos (by rw [inCoarse_iff]; omega)]
  exact (if_neg (by rw [isShort_iff]; omega)).trans (if_neg (by rw [isLong_iff]; omega))

theorem classifyEdge_bit0 {d : Nat} (s : State) (h : 800 < d ∧ d < 1200) (hl : s.longPending = true) :
    classifyEdge .high d s = ((s.push false).setPulse false false).emit none (some .eBit0) := by
  unfold classifyEdge; rw [if_pos (by rw [inCoarse_iff]; omega)]
  exact if_pos (by simp [(isGap_iff d).mpr h, hl])

theorem classifyEdge_bit1 {d : Nat} (s : State) (h : 800 < d ∧ d < 1200) (hl : s.longPending = false)
    (hs : s.shortPending = true) :
    classifyEdge .high d s = ((s.push true).setPulse false false).emit none (some .eBit1) := by
  unfold classifyEdge; rw [if_pos (by rw [inCoarse_iff]; omega)]
  exact (if_neg (by simp [hl])).trans (if_pos (by simp [(isGap_iff d).mpr h, hs]))

theorem classifyEdge_noBit {d : Nat} (s : State) (hc : 400 < d ∧ d < 1400)
    (h : ¬(800 < d ∧ d < 1200) ∨ (s.longPending = false ∧ s.shortPending = false)) :
    classifyEdge .high d s = (s.setPulse false false).emit none (some .eNoBit) := by
  unfold classifyEdge; rw [if_pos ((inCoarse_iff d).mpr hc)]
  refine (if_neg ?_).trans (if_neg ?_) <;> simp only [Bool.and_eq_true, isGap_iff] <;> rcases h with h | h <;> simp_all

/-- All that classifying an edge can do: write the flags and an event, and on a rising edge that ends a gap with a
flag set, push one bit (R120, R130). -/
theorem classifyEdge_shape (level : Level) (d : Nat) (s : State) :
    (∃ a b e, (a && b) = false ∧ classifyEdge level d s = (s.setPulse a b).emit none (some e)) ∨
    (∃ b e, level = .high ∧ (800 < d ∧ d < 1200) ∧ (s.longPending = true ∨ s.shortPending = true) ∧
      b = !s.longPending ∧ classifyEdge level d s = ((s.push b).setPulse false false).emit none (some e)) := by
  by_cases hc : 400 < d ∧ d < 1400
  · cases level with
    | low =>
      left
      rcases Nat.lt_or_ge d 700 with h1 | h1
      · exact ⟨_, _, _, rfl, classifyEdge_short s ⟨hc.1, h1⟩⟩
      · rcases Nat.lt_or_ge 1100 d with h2 | h2
        · exact ⟨_, _, _, rfl, classifyEdge_long s ⟨h2, hc.2⟩⟩
        · exact ⟨_, _, _, rfl, classifyEdge_ambiguous s ⟨h1, h2⟩⟩
    | high =>
      by_cases hg : 800 < d ∧ d < 1200
      · cases hl : s.longPending with
        | true => exact .inr ⟨_, _, rfl, hg, .inl rfl, rfl, classifyEdge_bit0 s hg hl⟩
        | false =>
          cases hs : s.shortPending with
          | true => exact .inr ⟨_, _, rfl, hg, .inr rfl, rfl, classifyEdge_bit1 s hg hl hs⟩
          | false => exact .inl ⟨_, _, _, rfl, classifyEdge_noBit s hc (.inr ⟨hl, hs⟩)⟩
      · exact .inl ⟨_, _, _, rfl, classifyEdge_noBit s hc (.inl hg)⟩
  · exact .inl ⟨_, _, _, rfl, classifyEdge_discard level s hc⟩

/-! EDGE itself. -/

theorem edgeStep_first (level : Level) (ts : Nat) {s : State} (h : s.lastEdgeValid = false) :
    edgeStep level ts s = (s.latchEdge ts).emit none (some .eFirst) := by simp [edgeStep, h]

theorem edgeStep_later (level : Level) (ts : Nat) {s : State} (h : s.lastEdgeValid = true) :
    edgeStep level ts s = (classifyEdge level (s.delta ts) s).latchEdge ts := by simp [edgeStep, h]

theorem execEdge_first (level : Level) (ts : Nat) {s : State} (h : s.lastEdgeValid = false) :
    execEdge level ts s = .next ((s.latchEdge ts).emit none (some .eFirst)) :=
  congrArg Host.Outcome.next (edgeStep_first level ts h)

theorem execEdge_later (level : Level) (ts : Nat) {s : State} (h : s.lastEdgeValid = true) :
    execEdge level ts s = .next ((classifyEdge level (s.delta ts) s).latchEdge ts) :=
  congrArg Host.Outcome.next (edgeStep_later level ts h)

end Sys2Proof.Machine
end

