-- ==== Sys2Proof/Laws/Encoding.lean ====
section
/-! SUPPORT. The fields of a command word and the word packed from fields are each other's inverse, for every timestamp
width (R105). -/

namespace Sys2Proof

variable {w : Nat}

/-- A packed word, bit by bit: `opc`, `a` and `t` at their places (R105). -/
theorem packWord_getLsbD (opc : BitVec 3) (a : Bool) (t : BitVec w) (i : Nat) :
    (packWord opc a t).getLsbD i =
      if i < w then t.getLsbD i else if i = w then a else opc.getLsbD (i - w - 1) := by
  simp only [packWord, BitVec.getLsbD_setWidth, BitVec.getLsbD_append, BitVec.getLsbD_ofBool]
  by_cases h1 : i < w
  · simp [h1, show i < w + 4 by omega]
  · by_cases h2 : i = w
    · subst h2; simp
    · have h3 : ¬ i - w < 1 := by omega
      by_cases h4 : i < w + 4
      · simp [h1, h2, h3, h4]
      · simp [h1, h2, h3, h4, BitVec.getLsbD_of_ge opc (i - w - 1) (by omega)]

@[simp] theorem fieldOpc_packWord (opc : BitVec 3) (a : Bool) (t : BitVec w) : fieldOpc (packWord opc a t) = opc := by
  refine BitVec.eq_of_getLsbD_eq fun i hi => ?_
  simp only [fieldOpc, BitVec.getLsbD_extractLsb', packWord_getLsbD, hi, decide_true, Bool.true_and]
  rw [if_neg (by omega), if_neg (by omega), show w + 1 + i - w - 1 = i by omega]

@[simp] theorem fieldA_packWord (opc : BitVec 3) (a : Bool) (t : BitVec w) : fieldA (packWord opc a t) = a := by
  rw [fieldA, packWord_getLsbD, if_neg (Nat.lt_irrefl w), if_pos rfl]

@[simp] theorem fieldT_packWord (opc : BitVec 3) (a : Bool) (t : BitVec w) : fieldT (packWord opc a t) = t := by
  refine BitVec.eq_of_getLsbD_eq fun i hi => ?_
  simp [fieldT, packWord_getLsbD, hi]

/-- Every word is packed from its three fields (R105). -/
theorem packWord_fields (cw : CommandWord w) : packWord (fieldOpc cw) (fieldA cw) (fieldT cw) = cw := by
  refine BitVec.eq_of_getLsbD_eq fun i hi => ?_
  rw [packWord_getLsbD]
  split_ifs with h1 h2
  · simp [fieldT, h1]
  · rw [h2]; rfl
  · simp only [fieldOpc, BitVec.getLsbD_extractLsb', show i - w - 1 < 3 by omega, decide_true, Bool.true_and]
    rw [show w + 1 + (i - w - 1) = i by omega]

/-- Every word is packed from three fields (R105). -/
theorem packWord_surjective (cw : CommandWord w) : ∃ opc a t, cw = packWord opc a t :=
  ⟨_, _, _, (packWord_fields cw).symm⟩

/-- Packing is injective. -/
theorem packWord_inj {opc opc' : BitVec 3} {a a' : Bool} {t t' : BitVec w} :
    packWord opc a t = packWord opc' a' t' ↔ opc = opc' ∧ a = a' ∧ t = t' := by
  refine ⟨fun h => ⟨?_, ?_, ?_⟩, fun ⟨h1, h2, h3⟩ => by rw [h1, h2, h3]⟩
  · simpa using congrArg fieldOpc h
  · simpa using congrArg fieldA h
  · simpa using congrArg fieldT h

/-- The bitwise conjunction of packed words, field by field. -/
theorem packWord_and (opc opc' : BitVec 3) (a a' : Bool) (t t' : BitVec w) :
    packWord opc a t &&& packWord opc' a' t' = packWord (opc &&& opc') (a && a') (t &&& t') := by
  refine BitVec.eq_of_getLsbD_eq fun i hi => ?_
  simp only [BitVec.getLsbD_and, packWord_getLsbD]
  split_ifs <;> rfl

/-- The eight operation codes (R106). -/
theorem opc_cases (opc : BitVec 3) :
    opc = 0 ∨ opc = 1 ∨ opc = 2 ∨ opc = 3 ∨ opc = 4 ∨ opc = 5 ∨ opc = 6 ∨ opc = 7 := by revert opc; decide

/-- Decoding a packed word (R106). -/
theorem decode_packWord (opc : BitVec 3) (a : Bool) (t : BitVec w) :
    decode (packWord opc a t) = decodeFields opc.toNat a t.toNat := by simp [decode]

/-- The number of a word decodes as the word. -/
theorem decodeNumber_toNat (cw : CommandWord w) : decodeNumber w cw.toNat = decode cw := by
  simp [decodeNumber, cw.isLt]

/-- A decoded number is a word (R105). -/
theorem decodeNumber_ok {n : Nat} {i : Instr} (h : decodeNumber w n = .ok i) :
    ∃ cw : CommandWord w, cw.toNat = n ∧ decode cw = .ok i := by
  unfold decodeNumber at h
  split at h
  · next hn => exact ⟨BitVec.ofNat (w + 4) n, by simpa using Nat.mod_eq_of_lt hn, h⟩
  · cases h

/-- A decoded operation has the times of the machine's width (R108). -/
theorem wellFormed_of_decode {cw : CommandWord w} {i : Instr} (h : decode cw = .ok i) : i.wellFormed w = true := by
  obtain ⟨opc, a, t, rfl⟩ := packWord_surjective cw
  rw [decode_packWord] at h
  rcases opc_cases opc with rfl | rfl | rfl | rfl | rfl | rfl | rfl | rfl <;>
    simp only [decodeFields, requireBothZero, requireArgZero, requireTimeZero, BitVec.reduceToNat] at h <;>
    (try split at h) <;> (try split at h) <;> cases h <;> simp [Instr.wellFormed, t.isLt]

end Sys2Proof
end

