-- ==== Sys2Proof/Laws/Exec.lean ====
section
/-! SUPPORT. What one operation and one step can do, arm by arm. -/

namespace Sys2Proof.Machine

theorem exec_nop (s : State) : exec .nop s = .next (s.emit none none) := rfl

theorem exec_edge (level : Level) (ts : Nat) (s : State) : exec (.edge level ts) s = execEdge level ts s := rfl

theorem exec_edge_next (level : Level) (ts : Nat) (s : State) :
    exec (.edge level ts) s = .next (edgeStep level ts s) := rfl

theorem exec_dstep (now : Nat) (s : State) : exec (.dstep now) s = .next (decoderStep now s) := rfl

theorem exec_status (s : State) : exec .status s = .next (s.emit (some (.status s.readingPending)) none) := rfl

theorem exec_take (s : State) :
    exec .take s =
      .next (s.clearPending.emit (some (.reading (readingWord s.slotUnit s.slotId s.slotTemp))) none) := rfl

theorem exec_config (u : Bool) (s : State) : exec (.config u) s = .next ((s.setUseCelsius u).emit none none) := rfl

theorem exec_reset (s : State) : exec .reset s = .next s.resetBlock := rfl

/-- All that a step can do (R7, R110): stay idle, apply the decoded operation, or refuse the invalid word. -/
theorem step_cases (s : State) :
    (s.inbox = [] ∧ step s = .next s) ∨
    (∃ n rest i, s.inbox = n :: rest ∧ decodeNumber s.tsw n = .ok i ∧ step s = exec i (s.setInbox rest)) ∨
    (∃ n rest why, s.inbox = n :: rest ∧ decodeNumber s.tsw n = .error why ∧
      step s = .refused (.invalidCommandWord why)) := by
  cases hb : s.inbox with
  | nil => exact .inl ⟨rfl, by simp [step, hb]⟩
  | cons n rest =>
    cases hd : decodeNumber s.tsw n with
    | ok i => exact .inr (.inl ⟨n, rest, i, rfl, hd, by simp [step, hb, hd]⟩)
    | error why => exact .inr (.inr ⟨n, rest, why, rfl, hd, by simp [step, hb, hd]⟩)

end Sys2Proof.Machine
end

