-- ==== Sys2Proof/Laws/PerInstr.lean ====
section
/-! SUPPORT. Statements made for every operation, one lemma per constructor. -/

namespace Sys2Proof.Laws.EncodesValid

/-- The encoder gives a word that the match and mask table of R107 accepts. -/
def Statement (i : Instr) : Prop := (encode 32 i).wellFormed = true

theorem nop : Statement .nop := by unfold Statement; decide

theorem edge (level : Level) (ts : Nat) : Statement (.edge level ts) :=
  List.any_eq_true.mpr ⟨⟨"EDGE", packWord 0b001 false 0, packWord 0b111 false 0⟩, by decide,
    beq_iff_eq.mpr (by simp only [encode, packWord_and, Bool.and_false]; congr 1; simp)⟩

theorem dstep (now : Nat) : Statement (.dstep now) :=
  List.any_eq_true.mpr ⟨⟨"DSTEP", packWord 0b010 false 0, packWord 0b111 true 0⟩, by decide,
    beq_iff_eq.mpr (by simp only [encode, packWord_and, Bool.and_true]; congr 1; simp)⟩

theorem status : Statement .status := by unfold Statement; decide

theorem take : Statement .take := by unfold Statement; decide

theorem config (celsius : Bool) : Statement (.config celsius) := by unfold Statement; revert celsius; decide

theorem reset : Statement .reset := by unfold Statement; decide

end Sys2Proof.Laws.EncodesValid
end

