-- ==== Sys2Proof/Laws/Runs.lean ====
section
/-! SUPPORT. Sequences of operations and the turns of a poll. -/

namespace Sys2Proof.Machine

/-- A sequence in two parts is the second part applied after the first (R7). -/
theorem applyAll_append_of_next {is js : List Instr} {s t : State} (h : applyAll is s = .next t) :
    applyAll (is ++ js) s = applyAll js t := by
  induction is generalizing s with
  | nil => cases h; rfl
  | cons i is ih =>
    simp only [applyAll, List.cons_append] at h ⊢
    split at h
    · exact ih h
    · cases h
    · cases h

/-- The trace events of a sequence in two parts (R251). -/
theorem tracesOf_append_of_next {is js : List Instr} {s t : State} (h : applyAll is s = .next t) :
    tracesOf (is ++ js) s = tracesOf is s ++ tracesOf js t := by
  induction is generalizing s with
  | nil => cases h; rfl
  | cons i is ih =>
    simp only [applyAll, tracesOf, List.cons_append] at h ⊢
    split at h
    · rw [ih h, List.append_assoc]
    · cases h
    · cases h

/-- The end of a poll is the EDGEs of the turns before the polling context goes on, and then STATUS (R117, R118). -/
theorem statusOps_shape (time : Nat → Nat) {turns : List Turn} {ops : List Instr} (h : statusOps turns = some ops) :
    ∃ pause final rest, turns = pause ++ .host final :: rest ∧ (∀ x ∈ pause, x.isEdge = true) ∧
      ops = pause.map (Turn.op time) ++ [.status] := by
  induction turns generalizing ops with
  | nil => cases h
  | cons turn turns ih =>
    cases turn with
    | host clock => cases h; exact ⟨[], clock, turns, rfl, by simp, rfl⟩
    | edge level ts =>
      obtain ⟨more, hr, rfl⟩ := Option.map_eq_some_iff.mp h
      obtain ⟨pause, final, rest, rfl, hp, rfl⟩ := ih hr
      exact ⟨.edge level ts :: pause, final, rest, rfl, List.forall_mem_cons.mpr ⟨rfl, hp⟩, rfl⟩

/-- A turn is an EDGE or a turn of the polling context: the two counts. -/
theorem countP_isEdge_cons (turn : Turn) (turns : List Turn) :
    (turn :: turns).countP Turn.isEdge = turns.countP Turn.isEdge + (if turn.isEdge then 1 else 0) ∧
    (turn :: turns).countP (fun x => !x.isEdge) =
      turns.countP (fun x => !x.isEdge) + (if turn.isEdge then 0 else 1) := by
  cases turn <;> simp [List.countP_cons, Turn.isEdge]

end Sys2Proof.Machine
end

