-- ==== Sys2Proof/Laws/Windows.lean ====
section
/-! SUPPORT. Facts of the times and of the queue that the spec derives: the wrap of the clock (R122, R178), the bound
no test can observe (C1), the timeout in numbers (R176), the lap (R146). -/

namespace Sys2Proof.Machine

/-- The interval is the true one across a wrap, for a clock of any width (R122, R178; D4). -/
theorem timeSince_add {w : Nat} (d : Nat) (earlier : Nat) (h : d < 2 ^ w) :
    timeSince w ((earlier + d) % 2 ^ w) earlier = d := by
  have hd : (d : Int) % ((2 ^ w : Nat) : Int) = d := by rw [← Int.natCast_mod, Nat.mod_eq_of_lt h]
  rw [timeSince, Int.natCast_mod, Int.emod_sub_emod, Nat.cast_add, add_sub_cancel_left, hd, Int.toNat_natCast]

/-- The interval is a value of the clock's width (R122). -/
theorem timeSince_lt (w : Nat) (later earlier : Nat) : timeSince w later earlier < 2 ^ w := by
  have h := Int.emod_lt_of_pos ((later : Int) - earlier) (b := ((2 ^ w : Nat) : Int)) (by positivity)
  have h' := Int.emod_nonneg ((later : Int) - earlier) (b := ((2 ^ w : Nat) : Int)) (by positivity)
  unfold timeSince; omega

/-- On a clock that does not run backward or wrap, the interval is the difference (R122, R266). -/
theorem timeSince_of_le {w : Nat} {later earlier : Nat} (h : earlier ≤ later) (hl : later < 2 ^ w) :
    timeSince w later earlier = later - earlier := by
  have := timeSince_add (w := w) (later - earlier) earlier (by omega)
  rwa [show earlier + (later - earlier) = later by omega, Nat.mod_eq_of_lt hl] at this

/-- Any upper bound of 1400 or more gives the same long class inside the coarse window (C1). -/
theorem isLong_bound (hi d : Nat) (h : 1400 ≤ hi) (hc : inCoarse d = true) : inWindow lgLo d hi = isLong d := by
  rw [Bool.eq_iff_iff, inWindow_iff, isLong_iff]
  have := (inCoarse_iff d).mp hc
  simp only [lgLo]; omega

/-- The window has elapsed from exactly one second on (R176). -/
theorem State.windowElapsed_iff (s : State) (now : Nat) :
    s.windowElapsed now = true ↔ 1000000 ≤ s.elapsed now := decide_eq_true_iff

/-- A push with `CAP - 1` bits pending makes the cursors meet (R146). -/
theorem State.push_lap (s : State) (b : Bool) (hw : s.qWr < s.cap) (hr : s.qRd < s.cap)
    (h : s.pend + 1 = s.cap) : (s.push b).qRd = (s.push b).qWr := by
  rw [State.pend_eq hw hr] at h
  rw [State.push_qRd, State.push_qWr, State.nextCursor_eq s hw]
  split_ifs at h ⊢ <;> omega

/-- The fill count is 35 or below it. -/
theorem count_eq_last {c : Fin 36} : c = 35 ↔ ¬c.val < 35 := by revert c; decide

/-- The step of the fill count below 35 (R174). -/
theorem count_succ {c : Fin 36} (h : c.val < 35) : (c + 1).val = c.val + 1 := by revert c; decide

end Sys2Proof.Machine
end

