-- ==== Sys2Proof/Tests/Slice0.lean ====
section
/-! SUPPORT. Tests: words written out from the spec's encodings, vectors of spec/95_test_vectors.md, ill-formed terms for
each check, and a witness for the hypotheses of each obligation that has any. -/

namespace Sys2Proof.Tests

open Sys2Proof.Machine

/-! Helpers. -/

/-- The next state of an outcome. -/
def nextOf : Host.Outcome State Fault Refusal → Option State
  | .next t => some t
  | .fault _ => none
  | .refused _ => none

/-- What `f` reads in the state after `i`. -/
def after {α : Type} (i : Instr) (s : State) (f : State → α) : Option α := (nextOf (exec i s)).map f

/-- A step with a property of its next state, from the evaluated property. -/
theorem exists_next {o : Host.Outcome State Fault Refusal} {P : State → Bool}
    (h : ((nextOf o).map P).getD false = true) : ∃ t, o = .next t ∧ P t = true := by
  cases o with
  | next t => exact ⟨t, rfl, h⟩
  | fault r => cases r
  | refused r => cases h

/-- A state that has seen an edge at 10000 (95_test_vectors section 2.1). -/
def edgeState (short long : Bool) : State :=
  { State.reset with lastEdgeValid := true, lastEdgeTime := 10000, shortPending := short, longPending := long }

/-- A state whose queue holds these unread bits from cell 0 on. -/
def queueState (bits : List Bool) : State :=
  { State.reset with qMem := (List.range bits.length).zip bits, qWr := bits.length }

/-- A search at this progress with these bits to pop. -/
def searchState (p : Fin 8) (bits : List Bool) : State := { queueState bits with progress := p }

/-- A capture opened at 90000, filled with the first `c` bits of `F`, with these bits to pop (section 2.4). -/
def captureState (F : Frame) (c : Fin 36) (bits : List Bool) : State :=
  { queueState bits with
    mode := .capture, count := c, capStart := 90000, slotId := 0, slotTemp := 0, slotUnit := .fahrenheit,
    frame := (List.range c.val).map (fun i => (i, F.getMsbD i)) }

/-! The decoder, on words written out bit by bit from the table of R106: opc, a, t. -/

theorem test_decode_nop :
    (decode (w := 32) 0b000_0_00000000000000000000000000000000).toOption = some .nop := by decide
theorem test_decode_edge_high :
    (decode (w := 32) 0b001_1_00000000000000000000001111101000).toOption = some (.edge .high 1000) := by decide
theorem test_decode_edge_low :
    (decode (w := 32) 0b001_0_00000000000000000000011000001110).toOption = some (.edge .low 1550) := by decide
theorem test_decode_dstep :
    (decode (w := 32) 0b010_0_00000000000000000000011111010000).toOption = some (.dstep 2000) := by decide
theorem test_decode_dstep_top_bit :
    (decode (w := 32) 0b010_0_10000000000000000000000000000000).toOption = some (.dstep 0x80000000) := by decide
theorem test_decode_status :
    (decode (w := 32) 0b011_0_00000000000000000000000000000000).toOption = some .status := by decide
theorem test_decode_take :
    (decode (w := 32) 0b100_0_00000000000000000000000000000000).toOption = some .take := by decide
theorem test_decode_config_celsius :
    (decode (w := 32) 0b101_1_00000000000000000000000000000000).toOption = some (.config true) := by decide
theorem test_decode_config_fahrenheit :
    (decode (w := 32) 0b101_0_00000000000000000000000000000000).toOption = some (.config false) := by decide
theorem test_decode_reset :
    (decode (w := 32) 0b111_0_00000000000000000000000000000000).toOption = some .reset := by decide
theorem test_decode_other_width :
    (decode (w := 20) 0b001_1_11110100001001000000).toOption = some (.edge .high 1000000) ∧
    (decode (w := 20) 0b010_1_11110100001001000000).toOption = none ∧
    (encode 20 (.config true)).toNat = 0b101_1_00000000000000000000 := by decide
theorem test_decode_table_word :
    decodeTableWord 40 0x3000003E8 = some (.edge .high 1000) ∧ decodeTableWord 36 0xE00000000 = some .reset ∧
    decodeTableWord 40 0x1000000000 = none ∧ decodeTableWord 36 0xC00000000 = none := by decide

/-! The invalid words of section 2.7, one for each check. -/

theorem test_reserved_opcode_refused :
    CommandWord.wellFormed 0xC00000000 = false ∧ (decode (w := 32) 0xC00000000).toOption = none := by decide
theorem test_status_with_argument_refused :
    CommandWord.wellFormed 0x700000000 = false ∧ (decode (w := 32) 0x700000000).toOption = none := by decide
theorem test_dstep_with_argument_refused :
    CommandWord.wellFormed 0x500000000 = false ∧ (decode (w := 32) 0x500000000).toOption = none := by decide
theorem test_config_with_time_refused :
    CommandWord.wellFormed 0xA00000001 = false ∧ (decode (w := 32) 0xA00000001).toOption = none := by decide
theorem test_time_too_wide_ill_formed :
    (Instr.edge .high 0x100000000).wellFormed 32 = false ∧ (Instr.dstep 0x100000).wellFormed 20 = false := by decide
theorem test_invalid_word_step_refused :
    step (State.reset.withFetchWord 40 0xC00000000) = .refused (.invalidCommandWord .reservedOpcode) ∧
    step (State.reset.withFetchWord 40 0x1000000000) = .refused (.invalidCommandWord .tooLong) := ⟨rfl, rfl⟩

/-! Single operations. -/

theorem test_nop_keeps_flags :
    after .nop (edgeState true false) (fun t => (t.shortPending, t.lastEdgeTime, t.response, t.trace)) =
      some (true, 10000, none, none) := by decide
theorem test_edge_pulse_classes :
    [700, 701, 1100].map (fun d => after (.edge .low (10000 + d)) (edgeState true false)
      (fun t => (t.shortPending, t.longPending))) = List.replicate 3 (some (false, false)) ∧
    [401, 699].map (fun d => after (.edge .low (10000 + d)) (edgeState false true)
      (fun t => (t.shortPending, t.longPending))) = List.replicate 2 (some (true, false)) ∧
    [1101, 1399].map (fun d => after (.edge .low (10000 + d)) (edgeState true false)
      (fun t => (t.shortPending, t.longPending))) = List.replicate 2 (some (false, true)) := by decide
theorem test_edge_gap_ends :
    [800, 801, 1199, 1200].map (fun d => after (.edge .high (10000 + d)) (edgeState false true)
      (fun t => (t.qMem, t.qWr, t.longPending))) =
      [some ([], 0, false), some ([(0, false)], 1, false), some ([(0, false)], 1, false), some ([], 0, false)] := by
  decide
theorem test_dstep_completes_after_window :
    after (.dstep 5000000) (captureState 0x01825000A 35 [false])
      (fun t => (t.slotId, t.slotTemp, t.slotUnit, t.readingPending, t.mode, t.count)) =
      some (12, 25000, .fahrenheit, true, .search, 0) := by decide +kernel
theorem test_dstep_timeout_boundary :
    [1089999, 1090000].map (fun now => after (.dstep now) (captureState 0 10 []) (fun t => (t.mode, t.count))) =
      [some (.capture, 10), some (.search, 0)] := by decide
theorem test_interval_wraps :
    timeSince 32 200 4294967000 = 496 ∧ timeSince 20 200 1048280 = 496 ∧ timeSince 20 1000 1000 = 0 := by decide
theorem test_status_after_reset : after .status State.reset (·.response) = some (some (.status false)) := by decide
theorem test_take_fahrenheit :
    after .take { State.reset with slotUnit := .fahrenheit, slotId := 12, slotTemp := 25000, readingPending := true }
      (fun t => (t.response, t.readingPending)) = some (some (.reading 0x06061A8), false) := by decide
theorem test_take_negative_celsius :
    after .take { State.reset with slotUnit := .celsius, slotId := 12, slotTemp := BitVec.ofInt 19 (-3889) }
      (·.response) = some (some (.reading 0x467F0CF)) := by decide
theorem test_config_celsius : after (.config true) State.reset (·.useCelsius) = some true := by decide
theorem test_reset_forgets :
    after .reset (captureState 0x01825000A 35 [false]) (fun t => (t.mode, t.count, t.qWr, t.frame)) =
      some (.search, 0, 0, []) := by decide

/-! The checksum (section 2.5), the fields and the rounding (section 2.6), the line code (S2), the queue (section 2.2). -/

theorem test_checksum_vectors :
    ([0x01825000A, 0x01925000A, 0x00000000A, 0xFFFFFFFF1, 0x5FF999999, 0xAAA725006, 0x00032000F] : List Frame).all
      checksumOk = true ∧
    ([0x01825000B, 0x01835000A, 0x11825000A, 0x000000000, 0xFFFFFFFFF] : List Frame).any checksumOk = false := by
  decide
theorem test_field_vectors :
    ([0x01825000A, 0x01802500A, 0x080000013, 0x00210000D, 0xAAA725006, 0xFFFFFFFF1] : List Frame).map
      (fun F => (sensorId F, tempFahrenheit F, celsiusOf (tempFahrenheit F))) =
      [(12, 25000, -3889), (12, 2500, -16389), (64, 1, -17777), (1, 10000, -12222), (85, 72500, 22500),
       (127, 166665, 74814)] := by decide
theorem test_celsius_rounding :
    [0, 1, 31999, 32000, 32001, 32002, 50000, 100000].map celsiusOf =
      [-17778, -17777, -1, 0, 1, 1, 10000, 37778] := by decide
theorem test_sent_bits :
    (nextOf (applyAll (sendBits 32 [true, false] 10000) (edgeState false false))).map (fun t => (t.qMem, t.qWr)) =
      some ([(0, true), (1, false)], 2) := by decide +kernel
theorem test_no_pop_from_empty : (queueState []).pop.isNone = true ∧ (queueState []).popBits 3 = [] := by decide
/-- An edge between the DSTEPs of a poll and one after its last test. -/
theorem test_poll_with_edges :
    pollOps 5 [.host 0, .edge .low 10550, .host 0, .edge .high 11550, .host 0]
      { queueState [true] with lastEdgeValid := true, lastEdgeTime := 10000 } =
      some [.dstep 5, .edge .low 10550, .edge .high 11550, .status] ∧
    pollOps 5 [.edge .low 10550, .edge .high 11550, .host 0, .host 0, .host 0, .edge .low 12000, .host 0]
      { queueState [true] with lastEdgeValid := true, lastEdgeTime := 10000 } =
      some [.edge .low 10550, .edge .high 11550, .dstep 5, .dstep 5, .edge .low 12000, .status] := by decide +kernel
/-- A blocking poll runs at least one DSTEP, and waits out a capture with none of its bits pending. -/
theorem test_blocking_poll :
    pollBlockingOps [.host 3, .host 0] (queueState []) = some [.dstep 3, .status] ∧
    pollBlockingOps [.host 1089999, .host 1090000, .host 0] (captureState 0 10 []) =
      some [.dstep 1089999, .dstep 1090000, .status] ∧
    pollBlockingOps [.host 1089999] (captureState 0 10 []) = none := by decide +kernel
theorem test_lap_of_four :
    ({ State.reset with cap := 4 }.pushAll [true, false, true, true]).hasPending = false ∧
    ({ State.reset with cap := 4 }.pushAll [true, false, true, true, false]).unread = [false] := by decide
theorem test_unread_after_forty :
    ({ State.reset with cap := 36 }.pushAll ((List.range 40).map (fun i => decide (37 ≤ i)))).unread =
      [false, true, true, true] := by decide
theorem test_text : instrText (.edge .low 1550) = "EDGE L, 1550" ∧ instrText (.config true) = "CONFIG C" := by decide
theorem test_trace_codes : traceCode .eFirst = 0 ∧ traceCode .eNoBit = 7 ∧ traceCode .dTimeout = 16 := by decide
theorem test_frame_word_bits : ([0, 7, 8, 35].map (0x01825000A : Frame).getMsbD) = [false, true, true, false] := by
  decide

/-! Witnesses: the hypotheses of each obligation, met by a concrete state and operands. -/

theorem witness_DecodeEncode : (Instr.edge .high 0xFFFFFFFF).wellFormed 32 = true ∧
    (Instr.dstep 0xFFFFF).wellFormed 20 = true ∧ Instr.reset.wellFormed 20 = true := by decide
theorem witness_EncodeDecode : decode (w := 32) 0x3000003E8 = .ok (.edge .high 1000) := rfl
theorem witness_DecodeMatchesOpcodeTable :
    ⟨"EDGE", 0x200000000, 0xE00000000⟩ ∈ opcodeTable ∧ (0x3000003E8 : CommandWord 32) &&& 0xE00000000 = 0x200000000 := by
  decide
theorem witness_StepRunsDecoded :
    (State.reset.withFetchWord 40 0x4000007D0).inbox = (0x4000007D0 : CommandWord State.reset.tsw).toNat :: [] ∧
    decode (w := State.reset.tsw) 0x4000007D0 = .ok (.dstep 2000) := ⟨rfl, rfl⟩
theorem witness_StepOtherwise :
    State.reset.inbox = [] ∧
    (State.reset.withFetchWord 40 0x700000000).inbox = (0x700000000 : CommandWord State.reset.tsw).toNat :: [] ∧
    decode (w := State.reset.tsw) 0x700000000 = .error .argumentNotZero ∧
    (State.reset.withFetchWord 40 0x1000000000).inbox = 0x1000000000 :: [] ∧
    2 ^ (State.reset.tsw + 4) ≤ 0x1000000000 := ⟨rfl, rfl, rfl, rfl, by decide⟩
theorem witness_EdgeFirst : State.reset.lastEdgeValid = false := rfl
theorem witness_EdgeDiscard :
    (edgeState true false).lastEdgeValid = true ∧
    ∀ ts ∈ ([10400, 11400] : List Nat), ¬(400 < (edgeState true false).delta ts ∧ (edgeState true false).delta ts < 1400) := by
  decide
theorem witness_EdgeFalling_EdgeRising :
    (edgeState false true).lastEdgeValid = true ∧
    ∀ ts ∈ ([10401, 10699, 10700, 10800, 10801, 11100, 11101, 11199, 11200, 11399] : List Nat),
      400 < (edgeState false true).delta ts ∧ (edgeState false true).delta ts < 1400 := by decide
theorem witness_EdgePushesIff :
    (edgeState true false).cursorsLegal ∧ after (.edge .high 11000) (edgeState true false) (·.qWr) = some 1 := by
  unfold State.cursorsLegal; decide
theorem witness_EdgeFrame :
    (∃ t, exec (.edge .low 10550) (edgeState false false) = .next t ∧ t.shortPending = true) ∧
    (∃ t, exec (.edge .high 11000) (edgeState true false) = .next t ∧ (t.qWr == 1) = true) :=
  ⟨exists_next (by decide), exists_next (P := fun t => t.qWr == 1) (by decide)⟩
theorem witness_SendBitsPushes :
    windowUs < 2 ^ (edgeState false false).tsw ∧
    (edgeState false false).lastEdgeValid = true ∧ (edgeState false false).lastEdgeTime = 10000 ∧
    (edgeState false false).shortPending = false ∧ (edgeState false false).longPending = false := by decide
theorem witness_AlternatingFlagsClear :
    levelsAlternate ([(Level.low, (1000 : Nat)), (.high, 2000)].map (fun e => Instr.edge e.1 e.2) ++ [.edge .low 2550]) ∧
    State.reset.lastEdgeValid = false ∧ State.reset.shortPending = false ∧ State.reset.longPending = false ∧
    ∃ t, applyAll ([(Level.low, (1000 : Nat)), (.high, 2000)].map (fun e => Instr.edge e.1 e.2)) State.reset = .next t ∧
      t.lastEdgeValid = true :=
  ⟨by simp [levelsAlternate, levelOf], rfl, rfl, rfl, exists_next (by decide)⟩
theorem witness_PopReads : (queueState [true]).qRd ≠ (queueState [true]).qWr := by decide
theorem witness_EmptyTest :
    (queueState [true]).cursorsLegal ∧ (queueState [true]).hasPending = true ∧ (queueState []).cursorsLegal ∧
    (queueState []).qRd = (queueState []).qWr := by unfold State.cursorsLegal; decide
theorem witness_QueueRetrieval :
    { State.reset with cap := 36, qWr := 35, qRd := 35 }.cursorsLegal := by unfold State.cursorsLegal; decide
theorem witness_QueueFifo :
    { queueState (List.replicate 34 true) with cap := 36 }.cursorsLegal ∧
    { queueState (List.replicate 34 true) with cap := 36 }.pend + 2 = 36 ∧
    { queueState (List.replicate 34 true) with cap := 36 }.hasPending = true ∧
    (queueState []).cursorsLegal ∧ (queueState []).hasPending = false := by
  unfold State.cursorsLegal; decide
theorem witness_SearchIdle :
    (searchState 3 []).mode = .search ∧ (searchState 3 []).qRd = (searchState 3 []).qWr := ⟨rfl, rfl⟩
theorem witness_SearchAdvance :
    ∀ p ∈ ([(0, false), (4, true), (6, true)] : List (Fin 8 × Bool)),
      (searchState p.1 [p.2]).mode = .search ∧ (searchState p.1 [p.2]).qRd ≠ (searchState p.1 [p.2]).qWr ∧
      (searchState p.1 [p.2]).qRead 0 = [false, false, false, false, true, false, true, false].getD p.1.val false ∧
      p.1.val < 7 := by decide
theorem witness_SearchMatch :
    (searchState 7 [false]).mode = .search ∧ (searchState 7 [false]).qRd ≠ (searchState 7 [false]).qWr ∧
    (searchState 7 [false]).progress = 7 ∧ (searchState 7 [false]).qRead 0 = false := by decide
theorem witness_SearchMismatch :
    ∀ p ∈ ([(0, true), (4, false), (7, true)] : List (Fin 8 × Bool)),
      (searchState p.1 [p.2]).mode = .search ∧ (searchState p.1 [p.2]).qRd ≠ (searchState p.1 [p.2]).qWr ∧
      (searchState p.1 [p.2]).qRead 0 ≠ [false, false, false, false, true, false, true, false].getD p.1.val false := by
  decide
theorem witness_PreambleMatches :
    (queueState (preamble ++ [true])).cursorsLegal ∧ (queueState (preamble ++ [true])).mode = .search ∧
    (queueState (preamble ++ [true])).progress = 0 ∧ (List.replicate 7 (5000 : Nat)).length = 7 ∧
    (queueState (preamble ++ [true])).unread = [false, false, false, false, true, false, true, false] ++ [true] := by
  unfold State.cursorsLegal; decide
theorem witness_CaptureStoresBit :
    ∀ c ∈ ([0, 35] : List (Fin 36)), (captureState 0 c [true]).mode = .capture ∧
      (captureState 0 c [true]).qRd ≠ (captureState 0 c [true]).qWr := by decide
theorem witness_CaptureContinues :
    (captureState 0 34 [true]).mode = .capture ∧
    (captureState 0 34 [true]).elapsed 1089999 < 1000000 ∧
    (captureState 0 34 [true]).qRd ≠ (captureState 0 34 [true]).qWr ∧ (captureState 0 34 [true]).count.val < 35 ∧
    (captureState 0 34 []).mode = .capture ∧ (captureState 0 34 []).qRd = (captureState 0 34 []).qWr := by decide
theorem witness_CaptureTimesOut :
    (captureState 0 34 [true]).mode = .capture ∧
    1000000 ≤ (captureState 0 34 [true]).elapsed 1090000 ∧
    (captureState 0 34 [true]).qRd ≠ (captureState 0 34 [true]).qWr ∧ (captureState 0 34 [true]).count.val < 35 ∧
    (captureState 0 34 []).mode = .capture ∧ (captureState 0 34 []).qRd = (captureState 0 34 []).qWr := by decide
theorem witness_CaptureCompletes :
    ∀ b, (captureState 0x01825000A 35 [b]).mode = .capture ∧
      (captureState 0x01825000A 35 [b]).qRd ≠ (captureState 0x01825000A 35 [b]).qWr ∧
      (captureState 0x01825000A 35 [b]).count = 35 := by decide
theorem witness_DecoderFrame :
    (∃ t, exec (.dstep 0) (searchState 3 [false]) = .next t) ∧
    (∃ t, exec (.dstep 100000) (captureState 0 5 [true]) = .next t ∧ t.trace = some .dFbit) := ⟨⟨_, rfl⟩, ⟨_, rfl, rfl⟩⟩
theorem witness_TransmissionPublishes :
    (edgeState false false).cursorsLegal ∧ windowUs < 2 ^ (edgeState false false).tsw ∧ 45 ≤ (edgeState false false).cap ∧
    (edgeState false false).lastEdgeValid = true ∧ (edgeState false false).lastEdgeTime = 10000 ∧
    (edgeState false false).shortPending = false ∧ (edgeState false false).longPending = false ∧
    (edgeState false false).qRd = (edgeState false false).qWr ∧ (edgeState false false).mode = .search ∧
    (edgeState false false).progress = 0 ∧ checksumOk 0x01825000A = true := by unfold State.cursorsLegal; decide
theorem witness_SingleBitFlip : checksumOk 0x01825000A = true := by decide
theorem witness_ParityIgnored :
    ∀ i, i < 36 → i ≠ 11 → (0x01825000A : Frame).getMsbD i = (0x01925000A : Frame).getMsbD i := by decide
theorem witness_ReadingOnlyFromValidFrame :
    ∃ t, exec (.dstep 100000) (captureState 0x01825000A 35 [false]) = .next t ∧
      (t.slotId != (captureState 0x01825000A 35 [false]).slotId) = true :=
  exists_next (P := fun t => t.slotId != (captureState 0x01825000A 35 [false]).slotId) (by decide +kernel)
theorem witness_TakeAgain :
    Instr.reset ∉ ([.status, .dstep 9000, .edge .low 10550, .config true, .nop, .take] : List Instr) ∧
    ∃ t, (exec .take (searchState 3 [false]) = .next t ∧ .dFrameOk ∉
        tracesOf [.status, .dstep 9000, .edge .low 10550, .config true, .nop, .take] t) ∧
      ∃ u v, applyAll [.status, .dstep 9000, .edge .low 10550, .config true, .nop, .take] t = .next u ∧
        exec .take u = .next v :=
  ⟨by decide, _, ⟨rfl, by decide⟩, _, _, rfl, rfl⟩
theorem witness_HostOperationsFrame :
    (∃ t, exec .status State.reset = .next t) ∧ (∃ t, exec .take State.reset = .next t) ∧
    (∃ t, exec .nop State.reset = .next t) ∧ ∀ u, ∃ t, exec (.config u) State.reset = .next t :=
  ⟨⟨_, rfl⟩, ⟨_, rfl⟩, ⟨_, rfl⟩, fun _ => ⟨_, rfl⟩⟩
theorem witness_OneBitRegisters :
    (∃ t, exec .reset (edgeState false false) = .next t ∧ (edgeState false false).lastEdgeValid = true ∧
      t.lastEdgeValid = false) ∧
    (∃ t, exec (.dstep 100000) (captureState 0x01825000A 35 [false]) = .next t ∧
      (captureState 0x01825000A 35 [false]).readingPending = false ∧ t.readingPending = true) ∧
    (∃ t, exec .take { State.reset with readingPending := true } = .next t ∧ t.readingPending = false) ∧
    (∃ t, exec (.config true) State.reset = .next t ∧ t.useCelsius ≠ State.reset.useCelsius) :=
  ⟨⟨_, rfl, rfl, rfl⟩,
   (exists_next (o := exec (.dstep 100000) _) (P := (·.readingPending)) (by decide +kernel)).imp fun _ h => ⟨h.1, rfl, h.2⟩,
   ⟨_, rfl, rfl⟩, (exists_next (o := exec (.config true) _) (P := (·.useCelsius)) (by decide)).imp fun _ h =>
     ⟨h.1, by simp [h.2, State.reset, State.afterReset]⟩⟩
theorem witness_EdgeCommutesWithPolling :
    (queueState [true]).cursorsLegal ∧ (queueState [true]).hasPending = true ∧ (queueState [true]).roomForBit ∧
    contextOf (.dstep 0) = some .polling ∧ contextOf .take = some .polling := by
  unfold State.cursorsLegal State.roomForBit; decide
theorem witness_PollDrains :
    (queueState [true, false]).cursorsLegal ∧ (queueState [true, false]).pend = 2 ∧
    (pollOps 5 [.host 0, .edge .low 10550, .host 0, .host 0, .host 0, .host 0] (queueState [true, false])).isSome = true ∧
    ([.host 0, .edge .low 10550, .host 0, .host 0, .host 0, .host 0] : List Turn).countP Turn.isEdge = 1 ∧
    ([.host 0, .edge .low 10550, .host 0, .host 0, .host 0, .host 0] : List Turn).countP (fun x => !x.isEdge) = 5 ∧
    (pollBlockingOps [.host 0, .edge .low 10550, .host 0, .host 0] (queueState [true, false])).isSome = true := by
  unfold State.cursorsLegal; decide

/-- A state with one unread bit meets the invariants of R38. -/
theorem queueState_inv : (queueState [true]).Inv where
  clock := by unfold State.clockLegal; decide
  times := ⟨BitVec.isLt _, BitVec.isLt _⟩
  cursors := by unfold State.cursorsLegal; decide
  sequencing := ⟨fun _ => rfl, fun _ => rfl⟩
  flags := by unfold State.flagsExclusive; decide
  memories := by unfold State.memoriesCanonical; decide
  unread := by
    intro k hk
    have : (queueState [true]).pend = 1 := by decide
    obtain rfl : k = 0 := by omega
    rfl
  captured := fun h => absurd h (by decide)

theorem witness_StepKeepsInv :
    (queueState [true]).Inv ∧ ∃ t, step (queueState [true]) = .next t := ⟨queueState_inv, _, rfl⟩
theorem witness_UnspecifiedNeverLeaks :
    (queueState [true]).Inv ∧ { queueState [true] with capStart := 7, slotId := 3 }.Inv ∧
    (queueState [true]).SameUpToUnspecified { queueState [true] with capStart := 7, slotId := 3 } :=
  ⟨queueState_inv,
   ⟨queueState_inv.clock, queueState_inv.times.imp_right fun _ => by decide, queueState_inv.cursors,
    queueState_inv.sequencing, queueState_inv.flags, queueState_inv.memories, queueState_inv.unread,
    queueState_inv.captured⟩,
   ⟨rfl, fun h => absurd h (by decide), rfl, rfl, rfl, rfl, rfl, rfl, rfl, rfl, rfl, fun h => absurd h (by decide),
    rfl, rfl, rfl, rfl, rfl, rfl⟩⟩

end Sys2Proof.Tests
end

section
/-! The proof of STATUS, with the rule that whole-state comparison through `quiet` does not see what an operation emits. -/

namespace Sys2Proof.Machine

/-- What an operation reports is no part of the state that `quiet` compares. -/
@[simp] theorem State.quiet_emit (s : State) (r : Option Response) (e : Option TraceEvent) :
    (s.emit r e).quiet = s.quiet := rfl

/-- Settles O48: STATUS only emits, so its response is the flag and nothing that `quiet` compares is written. -/
theorem statusResponds : Obligations.StatusResponds := fun s =>
  ⟨_, exec_status s, s.emit_response _ _, s.quiet_emit _ _⟩

end Sys2Proof.Machine
end

section
/-! The edge classifier, after its branches in `Laws/Edge`: what every EDGE leaves latched (R129), the flags after a
rising edge (R128), and the proofs of the statements about the first edge, the coarse window and alternating levels. -/

namespace Sys2Proof.Machine

/-! What every EDGE does, in each of its branches. -/

@[simp] theorem classifyEdge_tsw (level : Level) (d : Nat) (s : State) : (classifyEdge level d s).tsw = s.tsw := by
  obtain ⟨a, b, e, -, h⟩ | ⟨b, e, -, -, -, -, h⟩ := classifyEdge_shape level d s <;> simp [h]

/-- Every EDGE ends with its time latched, valid from then on (R121, R129), and keeps the width of the clock. -/
@[simp] theorem edgeStep_latched (level : Level) (ts : Nat) (s : State) :
    (edgeStep level ts s).lastEdgeValid = true ∧ (edgeStep level ts s).lastEdgeTime = ts ∧
      (edgeStep level ts s).tsw = s.tsw := by
  cases h : s.lastEdgeValid with
  | false => simp [edgeStep_first level ts h]
  | true => simp [edgeStep_later level ts h]

/-- After the first edge, latching writes the time alone. -/
theorem State.latchEdge_of_valid (ts : Nat) {s : State} (h : s.lastEdgeValid = true) :
    s.latchEdge ts = { s with lastEdgeTime := ts } := by
  cases s; cases h; rfl

/-- A run that begins with an EDGE goes on from the state after it. -/
theorem applyAll_edge_cons (level : Level) (ts : Nat) (is : List Instr) (s : State) :
    applyAll (.edge level ts :: is) s = applyAll is (edgeStep level ts s) := rfl

/-- The levels of a run of EDGEs (R120). -/
theorem filterMap_levelOf_edges (es : List (Level × Nat)) :
    (es.map fun e => Instr.edge e.1 e.2).filterMap levelOf = es.map Prod.fst := by
  rw [List.filterMap_map, ← List.filterMap_eq_map]; rfl

/-! The flags on alternating levels (R133). -/

/-- A rising edge that has an edge before it ends by clearing both flags, whether it pushes a bit or not (R124, R128). -/
theorem classifyEdge_high_shape (d : Nat) (s : State) :
    ∃ (u : State) (e : TraceEvent), classifyEdge .high d s = (u.setPulse false false).emit none (some e) := by
  by_cases hc : 400 < d ∧ d < 1400
  · by_cases hg : 800 < d ∧ d < 1200
    · cases hl : s.longPending with
      | true => exact ⟨_, _, classifyEdge_bit0 s hg hl⟩
      | false =>
        cases hs : s.shortPending with
        | true => exact ⟨_, _, classifyEdge_bit1 s hg hl hs⟩
        | false => exact ⟨_, _, classifyEdge_noBit s hc (.inr ⟨hl, hs⟩)⟩
    · exact ⟨_, _, classifyEdge_noBit s hc (.inl hg)⟩
  · exact ⟨_, _, classifyEdge_discard .high s hc⟩

/-- What holds of the flags before an edge of this level when the levels alternate: both are clear before a falling
edge (R133), and before the first edge of all. The second part starts the induction, for the first edge keeps the
flags as they are (R121). -/
def State.flagsClearBefore (s : State) (level : Level) : Prop :=
  s.lastEdgeValid = false ∨ level = .low → s.shortPending = false ∧ s.longPending = false

/-- An edge followed by one of the other level keeps `flagsClearBefore`: only a rising edge comes before a falling one,
and it clears both flags (R128) or, as the first edge, keeps them clear (R121). -/
theorem edgeStep_flagsClearBefore {level following : Level} (ts : Nat) {s : State} (hs : s.flagsClearBefore level)
    (hne : level ≠ following) : (edgeStep level ts s).flagsClearBefore following := by
  rintro (hv | rfl)
  · simp at hv
  · obtain rfl : level = .high := by cases level with
      | low => exact absurd rfl hne
      | high => rfl
    cases h : s.lastEdgeValid with
    | false => simpa [edgeStep_first .high ts h] using hs (.inl h)
    | true =>
      obtain ⟨u, e, hu⟩ := classifyEdge_high_shape (s.delta ts) s
      simp [edgeStep_later .high ts h, hu]

/-- A run of EDGEs whose levels alternate, up to an edge of level `last` that comes next, keeps `flagsClearBefore`. -/
theorem applyAll_edges_flagsClearBefore {es : List (Level × Nat)} {last : Level} {s t : State}
    (hs : ∀ level ∈ (es.map Prod.fst ++ [last]).head?, s.flagsClearBefore level)
    (halt : (es.map Prod.fst ++ [last]).IsChain (· ≠ ·))
    (ht : applyAll (es.map fun e => Instr.edge e.1 e.2) s = .next t) : t.flagsClearBefore last := by
  induction es generalizing s with
  | nil => cases ht; exact hs last rfl
  | cons e es ih =>
    obtain ⟨hne, halt⟩ := List.isChain_cons.mp halt
    rw [List.map_cons, applyAll_edge_cons] at ht
    exact ih (fun following hf => edgeStep_flagsClearBefore e.2 (hs e.1 rfl) (hne following hf)) halt ht

/-- Settles O20: with no flag set the premise of the run holds before an edge of any level, and its conclusion before a
falling edge is the statement. -/
theorem alternatingFlagsClear : Obligations.AlternatingFlagsClear := by
  intro s t es ts _ hshort hlong halt ht
  rw [levelsAlternate, List.filterMap_append, filterMap_levelOf_edges] at halt
  exact applyAll_edges_flagsClearBefore (fun _ _ _ => ⟨hshort, hlong⟩) halt ht (.inr rfl)

/-! The first edge, the coarse window and the latched time. -/

/-- Settles O11: the first edge is the latch and an event (R121). -/
theorem edgeFirst : Obligations.EdgeFirst := fun s level ts h =>
  ⟨_, execEdge_first level ts h, (s.latchEdge ts).quiet_emit _ _⟩

/-- Settles O12: outside the coarse window both flags are cleared (R124), and of the latch only the time is new. -/
theorem edgeDiscard : Obligations.EdgeDiscard := by
  intro s level ts hv hd
  refine ⟨_, execEdge_later level ts hv, ?_⟩
  rw [classifyEdge_discard level s hd, State.latchEdge_of_valid ts (by simpa using hv)]
  rfl

/-- Settles O15: every EDGE latches its time and keeps the width, which is all that the next interval depends on. -/
theorem edgeUpdatesLastTime : Obligations.EdgeUpdatesLastTime := fun s level ts =>
  ⟨_, exec_edge_next level ts s, by simp, fun ts' => by simp [State.delta]⟩

end Sys2Proof.Machine
end

section
/-! The bit queue: the cursors and the pending count after a push and after a pop, the unread bits as a list that a pop
takes from the front and a push extends at the end or empties (R145, R146), and the proofs of the statements about one
push, one pop, the empty test and any run of pushes. -/

namespace Sys2Proof.Machine

/-! The cursors and the pending count (R140). -/

theorem State.cursorsLegal_push {s : State} (h : s.cursorsLegal) (b : Bool) : (s.push b).cursorsLegal := by
  obtain ⟨hcap, hw, hr⟩ := h
  exact ⟨hcap, s.nextCursor_lt _ (by omega), hr⟩

theorem State.cursorsLegal_advanceRead {s : State} (h : s.cursorsLegal) : s.advanceRead.cursorsLegal := by
  obtain ⟨hcap, hw, hr⟩ := h
  exact ⟨hcap, hw, s.nextCursor_lt _ (by omega)⟩

theorem State.pend_lt {s : State} (h : s.cursorsLegal) : s.pend < s.cap := by
  obtain ⟨-, hw, -⟩ := h
  exact Nat.mod_lt _ (Nat.zero_lt_of_lt hw)

/-- The two forms of the empty test (R144). -/
theorem State.pend_eq_zero_iff {s : State} (h : s.cursorsLegal) : s.pend = 0 ↔ s.qRd = s.qWr := by
  obtain ⟨-, hw, hr⟩ := h
  rw [State.pend_eq hw hr]
  split <;> omega

/-- A push counts its bit modulo the capacity, so that a lap leaves nothing pending (R145, R146). -/
theorem State.pend_push {s : State} (h : s.cursorsLegal) (b : Bool) : (s.push b).pend = (s.pend + 1) % s.cap := by
  obtain ⟨-, -, hr⟩ := h
  simp only [State.pend, State.push_qWr, State.push_qRd, State.push_cap, State.nextCursor, Nat.add_sub_assoc hr.le,
    Nat.mod_add_mod, Nat.add_right_comm]

/-- A pop takes one bit off the pending count (R145). -/
theorem State.pend_advanceRead {s : State} (h : s.cursorsLegal) (hne : s.qRd ≠ s.qWr) :
    s.pend = s.advanceRead.pend + 1 := by
  obtain ⟨-, hw, hr⟩ := h
  have hr' : s.advanceRead.qRd < s.advanceRead.cap := s.nextCursor_lt _ (Nat.zero_lt_of_lt hr)
  rw [State.pend_eq hw hr, State.pend_eq (s := s.advanceRead) hw hr']
  simp only [State.advanceRead_qRd, State.advanceRead_qWr, State.advanceRead_cap, State.nextCursor_eq s hr]
  split_ifs <;> omega

/-! The unread bits. -/

theorem State.unread_of_empty {s : State} (h : s.qRd = s.qWr) : s.unread = [] := by
  unfold State.unread
  cases s.pend with
  | zero => rfl
  | succ n => simp [State.popBits, State.pop_none h]

/-- A pop takes the oldest unread bit (R143, R145). -/
theorem State.unread_of_pending {s : State} (h : s.cursorsLegal) (hne : s.qRd ≠ s.qWr) :
    s.unread = s.qRead s.qRd :: s.advanceRead.unread := by
  simp only [State.unread, State.pend_advanceRead h hne, State.popBits, State.pop_some hne]

/-- A pop and a push write different cursors, so they commute (R142, R143). -/
theorem State.advanceRead_push (s : State) (b : Bool) : (s.push b).advanceRead = s.advanceRead.push b := rfl

/-- A push that is no lap leaves something pending (R145). -/
theorem State.push_qRd_ne_qWr {s : State} (h : s.cursorsLegal) (hroom : s.roomForBit) (b : Bool) :
    (s.push b).qRd ≠ (s.push b).qWr := by
  have hroom : s.pend + 2 ≤ s.cap := hroom
  rw [Ne, ← State.pend_eq_zero_iff (State.cursorsLegal_push h b), State.pend_push h, Nat.mod_eq_of_lt (by omega)]
  omega

/-- A push that is no lap adds its bit behind the unread ones (R145), by induction on the pending count: the first pop
takes the new bit from an empty queue, and from any other the same bit as without the push. -/
theorem State.unread_push {s : State} (h : s.cursorsLegal) (hroom : s.roomForBit) (b : Bool) :
    (s.push b).unread = s.unread ++ [b] := by
  rw [State.unread_of_pending (State.cursorsLegal_push h b) (State.push_qRd_ne_qWr h hroom b), State.advanceRead_push,
    State.push_qRd, State.qRead_push]
  by_cases he : s.qRd = s.qWr
  · have he' : (s.advanceRead.push b).qRd = (s.advanceRead.push b).qWr := congrArg s.nextCursor he
    rw [State.unread_of_empty he, State.unread_of_empty he', if_pos he.symm]
    rfl
  · have hpend := State.pend_advanceRead h he
    have hroom' : s.advanceRead.roomForBit := by
      simp only [State.roomForBit, State.advanceRead_cap] at hroom ⊢; omega
    rw [State.unread_of_pending h he, State.unread_push (State.cursorsLegal_advanceRead h) hroom' b,
      if_neg (Ne.symm he), List.cons_append]
termination_by s.pend

/-- A lap loses every unread bit, the new one with them (R146). -/
theorem State.unread_push_lap {s : State} (h : s.cursorsLegal) (hlap : s.pend + 1 = s.cap) (b : Bool) :
    (s.push b).unread = [] := by
  obtain ⟨-, hw, hr⟩ := h
  exact State.unread_of_empty (s.push_lap b hw hr hlap)

/-! Runs of pushes. -/

theorem State.pushAll_concat (s : State) (bs : List Bool) (b : Bool) :
    s.pushAll (bs ++ [b]) = (s.pushAll bs).push b := List.foldl_concat ..

@[simp] theorem State.pushAll_cap (s : State) (bs : List Bool) : (s.pushAll bs).cap = s.cap := by
  induction bs using List.reverseRecOn with
  | nil => rfl
  | append_singleton bs b ih => rw [State.pushAll_concat, State.push_cap, ih]

theorem State.cursorsLegal_pushAll {s : State} (h : s.cursorsLegal) (bs : List Bool) :
    (s.pushAll bs).cursorsLegal := by
  induction bs using List.reverseRecOn with
  | nil => exact h
  | append_singleton bs b ih => exact State.pushAll_concat s bs b ▸ State.cursorsLegal_push ih b

/-- The pending count after pushes into an empty queue (R148). -/
theorem State.pend_pushAll {s : State} (h : s.cursorsLegal) (he : s.qRd = s.qWr) (bs : List Bool) :
    (s.pushAll bs).pend = bs.length % s.cap := by
  induction bs using List.reverseRecOn with
  | nil => exact ((State.pend_eq_zero_iff h).mpr he).trans (Nat.zero_mod _).symm
  | append_singleton bs b ih =>
    rw [State.pushAll_concat, State.pend_push (State.cursorsLegal_pushAll h bs), ih, State.pushAll_cap,
      Nat.mod_add_mod, List.length_append, List.length_singleton]

/-- The unread bits after pushes into an empty queue (R148): the last push adds its bit, or is a lap and leaves none. -/
theorem State.unread_pushAll {s : State} (h : s.cursorsLegal) (he : s.qRd = s.qWr) (bs : List Bool) :
    (s.pushAll bs).unread = bs.drop (bs.length - bs.length % s.cap) := by
  induction bs using List.reverseRecOn with
  | nil => exact State.unread_of_empty he
  | append_singleton bs b ih =>
    have hlegal := State.cursorsLegal_pushAll h bs
    have hpend := State.pend_pushAll h he bs
    have hlt := State.pend_lt hlegal
    have hle := Nat.mod_le bs.length s.cap
    rw [State.pushAll_cap] at hlt
    rw [State.pushAll_concat, List.length_append, List.length_singleton, ← Nat.mod_add_mod, ← hpend]
    by_cases hlap : (s.pushAll bs).pend + 1 = s.cap
    · rw [State.unread_push_lap hlegal (by rw [hlap, State.pushAll_cap]), hlap, Nat.mod_self]
      simp
    · have hroom : (s.pushAll bs).roomForBit := by
        simp only [State.roomForBit, State.pushAll_cap]; omega
      rw [State.unread_push hlegal hroom, ih, ← hpend, Nat.mod_eq_of_lt (a := _ + 1) (by omega), Nat.add_sub_add_right,
        List.drop_append_of_le_length (by omega)]

/-! The statements. -/

/-- Settles O21: the cells after a push are `State.qRead_push`; a push is the same record update whatever the read
cursor holds. -/
theorem pushWrites : Obligations.PushWrites := fun s b =>
  ⟨by rw [State.qRead_push, if_pos rfl], rfl, fun i hi => by rw [State.qRead_push, if_neg hi.symm], rfl, fun _ => rfl⟩

/-- Settles O24: the pending count and the unread bits, each by induction on the pushes from the last one back. -/
theorem queueRetrieval : Obligations.QueueRetrieval := fun _ bs h he =>
  ⟨State.pend_pushAll h he bs, State.unread_pushAll h he bs⟩

/-- Settles O22: the answer of `pop` on a queue that is not empty; a cursor step leaves the storage as it is. -/
theorem popReads : Obligations.PopReads := fun s hne =>
  ⟨s.advanceRead, State.pop_some hne, rfl, State.qRead_congr s.advanceRead_qMem s.advanceRead_resets⟩

/-- Settles O23: the two forms of the empty test. -/
theorem emptyTest : Obligations.EmptyTest := fun s => ⟨s.hasPending_iff, fun h => (State.pend_eq_zero_iff h).symm⟩

end Sys2Proof.Machine
end

section
/-! The preamble recognizer: one equation per row of R180 in SEARCH mode that keeps searching, and the proofs of the
statements about an empty queue, a bit that matches before the eighth and a bit that does not match. -/

namespace Sys2Proof.Machine

/-- Nothing to pop (R160). -/
theorem decoderStep_search_idle (now : Nat) {s : State} (hm : s.mode = .search) (he : s.qRd = s.qWr) :
    decoderStep now s = s.emit none (some .dIdle) := by
  rw [decoderStep_search now hm, if_pos he]

/-- A bit that matches before the eighth (R157). -/
theorem decoderStep_search_advance (now : Nat) {s : State} (hm : s.mode = .search) (hne : s.qRd ≠ s.qWr)
    (hb : s.qRead s.qRd = preambleBit s.progress) (hp : s.progress ≠ 7) :
    decoderStep now s = (s.advanceRead.setProgress (s.progress + 1)).emit none (some .dAdv) := by
  rw [decoderStep_search now hm, if_neg hne, if_pos hb, if_neg hp]

/-- A bit that does not match (R159). -/
theorem decoderStep_search_mismatch (now : Nat) {s : State} (hm : s.mode = .search) (hne : s.qRd ≠ s.qWr)
    (hb : s.qRead s.qRd ≠ preambleBit s.progress) :
    decoderStep now s = (s.advanceRead.setProgress 0).emit none (some .dMiss) := by
  rw [decoderStep_search now hm, if_neg hne, if_neg hb]

/-- Settles O26: on an empty queue the step only emits. -/
theorem searchIdle : Obligations.SearchIdle := by
  intro s now hm he
  refine ⟨_, exec_dstep now s, ?_⟩
  rw [decoderStep_search_idle now hm he, State.quiet_emit]

/-- Settles O27: below 7 the addition to the 3-bit progress does not wrap, so the stored progress is the sum. -/
theorem searchAdvance : Obligations.SearchAdvance := by
  intro s now hm hne hb hlt
  have hp : s.progress ≠ 7 := Fin.ne_of_lt hlt
  refine ⟨_, exec_dstep now s, ?_⟩
  rw [decoderStep_search_advance now hm hne hb hp]
  exact ⟨Fin.val_add_one_of_lt hlt, rfl⟩

/-- Settles O29: the pop and the progress back to 0, whatever the progress was. -/
theorem searchMismatch : Obligations.SearchMismatch := by
  intro s now hm hne hb
  refine ⟨_, exec_dstep now s, ?_⟩
  rw [decoderStep_search_mismatch now hm hne hb]
  rfl

end Sys2Proof.Machine
end

section
/-! The checksum (R190 to R197) as one linear condition on the frame's bits. Every bit has a weight, 0 at bit 11; the
checksum value of a nibble, the total, the loop and the field are all weighted sums of bits. The bits of the sum counted
positively and the bits of the field negatively give the syndrome, and a frame is valid exactly when 16 divides it. -/

namespace Sys2Proof.Machine

/-- The weight of frame bit `i` in its nibble; `PARITY_IDX` has none (R191). -/
def bitWeight (i : Nat) : Nat := if i = parityIdx then 0 else 2 ^ (3 - i % 4)

/-- Frame bit `i` with its weight. -/
def weightedBit (F : Frame) (i : Nat) : Nat := bitWeight i * frameBit F i

/-- The weight with its sign: the field of bits 32 to 35 counts against the sum (R194). -/
def signedWeight (i : Nat) : Int := if i < 32 then bitWeight i else -bitWeight i

/-- The seed and every frame bit with its signed weight. -/
def syndrome (F : Frame) : Int := csumSeed + ∑ i ∈ Finset.range 36, signedWeight i * frameBit F i

theorem frameBit_le_one (F : Frame) (i : Nat) : frameBit F i ≤ 1 := Bool.toNat_le _

theorem nibbleValue_lt (F : Frame) (n : Nat) : nibbleValue F n < 16 := by
  have h0 := frameBit_le_one F (4 * n)
  have h1 := frameBit_le_one F (4 * n + 1)
  have h2 := frameBit_le_one F (4 * n + 2)
  have h3 := frameBit_le_one F (4 * n + 3)
  unfold nibbleValue
  omega

/-- Within nibble `n`, the weight depends on the position only, but for bit 11. -/
theorem weightedBit_nibble (F : Frame) (n : Nat) {j : Nat} (hj : j < 4) :
    weightedBit F (4 * n + j) = 2 ^ (3 - j) * summedBit F (4 * n + j) := by
  have hmod : (4 * n + j) % 4 = j := by omega
  unfold weightedBit bitWeight summedBit
  split <;> simp [hmod]

theorem checksumValue_eq_sum (F : Frame) (n : Nat) :
    checksumValue F n = ∑ j ∈ Finset.range 4, weightedBit F (4 * n + j) := by
  rw [Finset.sum_congr rfl fun j hj => weightedBit_nibble F n (Finset.mem_range.mp hj)]
  simp [checksumValue, Finset.sum_range_succ]

theorem checksumTotal_eq_sum (F : Frame) (n : Nat) :
    checksumTotal F n = ∑ i ∈ Finset.range (4 * n), weightedBit F i := by
  induction n with
  | zero => rfl
  | succ n ih => rw [checksumTotal, ih, checksumValue_eq_sum, Nat.mul_succ, Finset.sum_range_add]

/-- Bit 11 is not in the field, so the field is a weighted sum as the checksum values are. -/
theorem checksumField_eq_sum (F : Frame) :
    checksumField F = ∑ j ∈ Finset.range 4, weightedBit F (32 + j) := by
  simp [checksumField, nibbleValue, Finset.sum_range_succ, weightedBit, bitWeight, parityIdx]

theorem checksumField_lt (F : Frame) : checksumField F < 16 := nibbleValue_lt F 8

theorem checksumOk_iff (F : Frame) : checksumOk F = true ↔ checksumAcc F = checksumField F := beq_iff_eq

/-- Settles O38: the three definitions with the parity index and the seed as numbers. -/
theorem checksumVerdict : Obligations.ChecksumVerdict := by
  refine fun F => ⟨fun n _ => ?_, rfl, ?_⟩
  · simp [checksumValue, summedBit, parityIdx, frameBit, List.range_succ, Nat.shiftLeft_eq, Nat.mul_comm,
      Nat.add_assoc]
  · rw [checksumOk_iff]
    simp [checksumAcc, checksumTotal, csumSeed, Nat.add_assoc]

/-- One round of the loop adds the weighted bit, modulo 16. -/
theorem checksumLoopStep_eq (F : Frame) {acc : Nat} (hacc : acc < 16) (i : Nat) :
    checksumLoopStep F acc i = (acc + weightedBit F i) % 16 := by
  have hbit : frameBit F i = 0 ∨ frameBit F i = 1 := Nat.le_one_iff_eq_zero_or_eq_one.mp (frameBit_le_one F i)
  unfold checksumLoopStep weightedBit bitWeight
  by_cases hi : i = parityIdx
  · simp [hi, Nat.mod_eq_of_lt hacc]
  · obtain hb | hb := hbit
    · simp [hb, Nat.mod_eq_of_lt hacc]
    · simp [hi, hb, Nat.shiftLeft_eq]

/-- After `n` rounds the accumulator is the seed and the weighted bits so far, modulo 16. -/
theorem foldl_checksumLoopStep (F : Frame) (n : Nat) :
    (List.range n).foldl (checksumLoopStep F) csumSeed =
      (csumSeed + ∑ i ∈ Finset.range n, weightedBit F i) % 16 := by
  induction n with
  | zero => rfl
  | succ n ih =>
    rw [List.range_succ, List.foldl_concat, ih,
      checksumLoopStep_eq F (Nat.mod_lt _ (by decide)), Nat.mod_add_mod, Finset.sum_range_succ, Nat.add_assoc]

/-- Settles O39: after all 32 rounds the bits so far are the total of the eight nibbles. -/
theorem checksumLoopAgrees : Obligations.ChecksumLoopAgrees := fun F => by
  rw [checksumLoop, foldl_checksumLoopStep, checksumAcc, checksumTotal_eq_sum]

/-- The syndrome is the seed and the total less the field. -/
theorem syndrome_eq (F : Frame) : syndrome F = csumSeed + checksumTotal F 8 - checksumField F := by
  have hsum : ∀ i ∈ Finset.range 32, signedWeight i * frameBit F i = (weightedBit F i : Int) := fun i hi => by
    simp [signedWeight, weightedBit, Finset.mem_range.mp hi]
  have hfield : ∀ j ∈ Finset.range 4, signedWeight (32 + j) * frameBit F (32 + j) = -(weightedBit F (32 + j) : Int) :=
    fun j _ => by simp [signedWeight, weightedBit]
  rw [syndrome, Finset.sum_range_add _ 32 4, Finset.sum_congr rfl hsum, Finset.sum_congr rfl hfield,
    checksumTotal_eq_sum, checksumField_eq_sum, Finset.sum_neg_distrib]
  push_cast
  ring

theorem checksumOk_iff_syndrome (F : Frame) : checksumOk F = true ↔ (16 : Int) ∣ syndrome F := by
  have hlt := checksumField_lt F
  rw [checksumOk_iff, syndrome_eq, checksumAcc]
  omega

/-- Only bit 11 has a weight that 16 divides. -/
theorem dvd_signedWeight_iff : ∀ i, i < 36 → ((16 : Int) ∣ signedWeight i ↔ i = 11) := by decide

theorem getMsbD_flip (F : Frame) {i : Nat} (hi : i < 36) (j : Nat) :
    (F ^^^ BitVec.twoPow 36 (35 - i)).getMsbD j = (F.getMsbD j ^^ decide (j = i)) := by
  have hexp : 35 - i < 36 := by omega
  have hpos : 36 - (35 - i) - 1 = i := by omega
  simp [BitVec.getMsbD_twoPow, hexp, hpos]

theorem frameBit_flip_self (F : Frame) {i : Nat} (hi : i < 36) :
    (frameBit (F ^^^ BitVec.twoPow 36 (35 - i)) i : Int) = 1 - frameBit F i := by
  rw [frameBit, getMsbD_flip F hi, frameBit]
  cases F.getMsbD i <;> simp

theorem frameBit_flip_of_ne (F : Frame) {i j : Nat} (hi : i < 36) (hne : j ≠ i) :
    frameBit (F ^^^ BitVec.twoPow 36 (35 - i)) j = frameBit F j := by
  simp [frameBit, getMsbD_flip F hi, hne]

/-- A flip adds or subtracts the weight of its bit: the other bits cancel. -/
theorem syndrome_flip (F : Frame) {i : Nat} (hi : i < 36) :
    syndrome (F ^^^ BitVec.twoPow 36 (35 - i)) = syndrome F + signedWeight i * (1 - 2 * frameBit F i) := by
  have hmem : i ∈ Finset.range 36 := Finset.mem_range.mpr hi
  have hrest : ∀ j ∈ (Finset.range 36).erase i,
      signedWeight j * (frameBit (F ^^^ BitVec.twoPow 36 (35 - i)) j : Int) = signedWeight j * frameBit F j :=
    fun j hj => by rw [frameBit_flip_of_ne F hi (Finset.ne_of_mem_erase hj)]
  rw [syndrome, syndrome, ← Finset.add_sum_erase _ _ hmem, ← Finset.add_sum_erase _ _ hmem,
    Finset.sum_congr rfl hrest, frameBit_flip_self F hi]
  ring

/-- The change a flip makes is the signed weight up to sign. -/
theorem dvd_flip_iff (F : Frame) (i : Nat) :
    (16 : Int) ∣ signedWeight i * (1 - 2 * frameBit F i) ↔ (16 : Int) ∣ signedWeight i := by
  unfold frameBit
  cases F.getMsbD i <;> norm_num

/-- Settles O40: the flip keeps 16 dividing the syndrome exactly when 16 divides the weight of the flipped bit. -/
theorem singleBitFlip : Obligations.SingleBitFlip := by
  intro F i hi hok
  rw [checksumOk_iff_syndrome] at hok ⊢
  rw [syndrome_flip F hi, dvd_add_right hok, dvd_flip_iff, dvd_signedWeight_iff i hi]

end Sys2Proof.Machine
end

section
/-! Bit 11 (R197): neither the verdict nor a published field reads it. -/

namespace Sys2Proof.Machine

section
variable {F G : Frame} (hFG : ∀ i, i < 36 → i ≠ 11 → F.getMsbD i = G.getMsbD i)
include hFG

theorem frameBit_congr {i : Nat} (hi : i < 36) (hne : i ≠ 11) : frameBit F i = frameBit G i :=
  congrArg Bool.toNat (hFG i hi hne)

/-- The weight of bit 11 is 0, so its value has no part in the syndrome. -/
theorem syndrome_congr : syndrome F = syndrome G := by
  have hterm : ∀ i ∈ Finset.range 36, signedWeight i * (frameBit F i : Int) = signedWeight i * frameBit G i := by
    intro i hi
    by_cases hpar : i = 11
    · have hzero : signedWeight 11 = 0 := rfl
      rw [hpar, hzero, zero_mul, zero_mul]
    · rw [frameBit_congr hFG (Finset.mem_range.mp hi) hpar]
  rw [syndrome, syndrome, Finset.sum_congr rfl hterm]

theorem checksumOk_congr : checksumOk F = checksumOk G := by
  rw [Bool.eq_iff_iff, checksumOk_iff_syndrome, checksumOk_iff_syndrome, syndrome_congr hFG]

/-- Bit 11 lies in nibble 2. -/
theorem nibbleValue_congr {n : Nat} (hn : n < 9) (hne : n ≠ 2) : nibbleValue F n = nibbleValue G n := by
  unfold nibbleValue
  rw [frameBit_congr hFG (i := 4 * n) (by omega) (by omega),
    frameBit_congr hFG (i := 4 * n + 1) (by omega) (by omega),
    frameBit_congr hFG (i := 4 * n + 2) (by omega) (by omega),
    frameBit_congr hFG (i := 4 * n + 3) (by omega) (by omega)]

/-- The sensor ID ends at bit 10 (R201). -/
theorem sensorId_congr : sensorId F = sensorId G := by
  simp [sensorId, frameBit_congr hFG]

/-- The temperature is read from nibbles 3 to 7 (R203). -/
theorem tempFahrenheit_congr : tempFahrenheit F = tempFahrenheit G := by
  simp [tempFahrenheit, nibbleValue_congr hFG]

theorem State.publish_congr (s : State) : s.publish F = s.publish G := by
  rw [State.publish, State.publish, publishedTemp, publishedTemp, sensorId_congr hFG, tempFahrenheit_congr hFG]

end

/-- Settles O41: the syndrome and every published field are functions of the other bits. -/
theorem parityIgnored : Obligations.ParityIgnored := fun _ _ hFG =>
  ⟨checksumOk_congr hFG, State.publish_congr hFG⟩

end Sys2Proof.Machine
end

section
/-! The sensor ID (R201): a slice of the frame, read as a number, is the weighted sum of its bits. -/

namespace Sys2Proof.Machine

theorem frameBit_eq_div_mod (F : Frame) {i : Nat} (hi : i < 36) : frameBit F i = F.toNat / 2 ^ (35 - i) % 2 := by
  simp [frameBit, BitVec.getMsbD_eq_getLsbD, hi, BitVec.getLsbD, Nat.toNat_testBit]

/-- Bit `p + n` comes last in the slice of `n + 1` bits from bit `p`, and weighs 1. -/
theorem frameSlice_succ (F : Frame) {p n : Nat} (h : p + n < 36) :
    (F.extractLsb' (36 - (p + (n + 1))) (n + 1)).toNat =
      2 * (F.extractLsb' (36 - (p + n)) n).toNat + frameBit F (p + n) := by
  have hlast : 36 - (p + (n + 1)) = 35 - (p + n) := by omega
  have hstart : 36 - (p + n) = 35 - (p + n) + 1 := by omega
  rw [hlast, hstart, frameBit_eq_div_mod F h, BitVec.extractLsb'_toNat, BitVec.extractLsb'_toNat,
    Nat.shiftRight_eq_div_pow, Nat.shiftRight_eq_div_pow, pow_succ' 2 n, Nat.mod_mul, pow_succ 2 (35 - (p + n)),
    Nat.div_div_eq_div_mul, Nat.add_comm]

/-- The `n` bits from bit `p`, earlier bit more significant. -/
theorem frameSlice_eq_sum (F : Frame) (p n : Nat) (h : p + n ≤ 36) :
    (F.extractLsb' (36 - (p + n)) n).toNat = ∑ k ∈ Finset.range n, 2 ^ (n - 1 - k) * frameBit F (p + k) := by
  induction n with
  | zero => simp
  | succ n ih =>
    have hdouble : ∀ k ∈ Finset.range n,
        2 ^ (n + 1 - 1 - k) * frameBit F (p + k) = 2 * (2 ^ (n - 1 - k) * frameBit F (p + k)) := fun k hk => by
      have hlt := Finset.mem_range.mp hk
      rw [show n + 1 - 1 - k = n - 1 - k + 1 by omega, pow_succ', Nat.mul_assoc]
    rw [frameSlice_succ F h, ih (by omega), Finset.sum_range_succ, Finset.sum_congr rfl hdouble, Finset.mul_sum]
    simp

/-- The ID is the slice of seven bits from bit 4. -/
theorem sensorId_eq_extractLsb' (F : Frame) : sensorId F = (F.extractLsb' 25 7).toNat := by
  rw [frameSlice_eq_sum F 4 7 (by decide)]
  simp [sensorId, Finset.sum_range_succ]

theorem sensorId_le (F : Frame) : sensorId F ≤ 127 := by
  rw [sensorId_eq_extractLsb']
  exact Nat.le_of_lt_succ (F.extractLsb' 25 7).isLt

theorem sensorId_eq_weighted_sum (F : Frame) :
    sensorId F = ((List.range 7).map (fun k => (F.getMsbD (4 + k)).toNat <<< (6 - k))).sum := by
  simp [sensorId, frameBit, List.range_succ, Nat.shiftLeft_eq, Nat.mul_comm, Nat.add_assoc]

/-- Settles O42: the slice of bits 4 to 10, its width, and its bits with their weights. -/
theorem sensorIdValue : Obligations.SensorIdValue := fun F =>
  ⟨sensorId_eq_extractLsb' F, sensorId_le F, sensorId_eq_weighted_sum F⟩

end Sys2Proof.Machine
end

section
/-! No operation stops (R245). Each operation's next state is the one its arm in `Laws/Exec` names. -/

namespace Sys2Proof.Machine

/-- The instruction set has no path that traps, faults or halts (R245). -/
theorem exec_exists_next (i : Instr) (s : State) : ∃ t, exec i s = .next t := by
  cases i with
  | nop => exact ⟨_, exec_nop s⟩
  | edge level ts => exact ⟨_, exec_edge_next level ts s⟩
  | dstep now => exact ⟨_, exec_dstep now s⟩
  | status => exact ⟨_, exec_status s⟩
  | take => exact ⟨_, exec_take s⟩
  | config u => exact ⟨_, exec_config u s⟩
  | reset => exact ⟨_, exec_reset s⟩

/-- Settles O8: an operation always has a next state, so of a word only its decoding can fail. -/
theorem noOperationStops : Obligations.NoOperationStops := by
  refine ⟨exec_exists_next, fun s cw => ?_⟩
  cases hd : decode cw with
  | error why => exact .inl ⟨why, rfl⟩
  | ok i =>
    obtain ⟨t, ht⟩ := exec_exists_next i s
    exact .inr ⟨i, t, rfl, ht⟩

end Sys2Proof.Machine
end

section
/-! Two runs that differ only in unspecified reset values (R261). Each update of the state keeps them so. A bit that
DSTEP reads has been written since reset, by the invariants of R38, so it is the same bit in both; EDGE reads the last
edge time, and DSTEP the start of the window, only where the two runs agree on it. So every operation takes the same
branch in both, and only the reading register can tell them apart. -/

namespace Sys2Proof.Machine

/-- The reading register as one value (R25). -/
def State.reading (s : State) : BitVec 7 × BitVec 19 × Scale := (s.slotId, s.slotTemp, s.slotUnit)

theorem State.reading_eq_iff {s t : State} :
    s.reading = t.reading ↔ s.slotId = t.slotId ∧ s.slotTemp = t.slotTemp ∧ s.slotUnit = t.slotUnit := by
  simp [State.reading]

/-! One rule per update of the state. -/

namespace State.SameUpToUnspecified

variable {s t : State} (h : s.SameUpToUnspecified t)
include h

theorem emit (r q : Option Response) (e : Option TraceEvent) : (s.emit r e).SameUpToUnspecified (t.emit q e) :=
  { h with trace := rfl }

theorem latchEdge (ts : Nat) : (s.latchEdge ts).SameUpToUnspecified (t.latchEdge ts) :=
  { h with lastEdgeValid := rfl, lastEdgeTime := fun _ => rfl }

theorem setPulse (short long : Bool) : (s.setPulse short long).SameUpToUnspecified (t.setPulse short long) :=
  { h with shortPending := rfl, longPending := rfl }

theorem push (b : Bool) : (s.push b).SameUpToUnspecified (t.push b) :=
  { h with
    qMem := by simp [h.qMem, h.qWr]
    qWr := by simp [State.nextCursor, h.qWr, h.cap] }

theorem advanceRead : s.advanceRead.SameUpToUnspecified t.advanceRead :=
  { h with qRd := by simp [State.nextCursor, h.qRd, h.cap] }

theorem setProgress (p : Fin 8) : (s.setProgress p).SameUpToUnspecified (t.setProgress p) :=
  { h with progress := rfl }

/-- The match writes the start of the window, so the capture it opens measures from the same time in both. -/
theorem openCapture (now : Nat) : (s.openCapture now).SameUpToUnspecified (t.openCapture now) :=
  { h with progress := rfl, mode := rfl, count := rfl, capStart := fun _ => rfl }

theorem fWrite (i : Nat) (b : Bool) : (s.fWrite i b).SameUpToUnspecified (t.fWrite i b) :=
  { h with frame := congrArg (Memory.write · i b) h.frame }

theorem setCount (c : Fin 36) : (s.setCount c).SameUpToUnspecified (t.setCount c) := { h with count := rfl }

theorem closeCapture : s.closeCapture.SameUpToUnspecified t.closeCapture :=
  { h with mode := rfl, count := rfl, capStart := nofun }

theorem publish (F : Frame) : (s.publish F).SameUpToUnspecified (t.publish F) := { h with readingPending := rfl }

theorem clearPending : s.clearPending.SameUpToUnspecified t.clearPending := { h with readingPending := rfl }

theorem setUseCelsius (u : Bool) : (s.setUseCelsius u).SameUpToUnspecified (t.setUseCelsius u) :=
  { h with useCelsius := rfl }

/-- After RESET no edge has been seen and no capture runs, so neither time is compared. -/
theorem resetBlock : s.resetBlock.SameUpToUnspecified t.resetBlock where
  lastEdgeValid := rfl
  lastEdgeTime := nofun
  shortPending := rfl
  longPending := rfl
  qMem := rfl
  qWr := rfl
  qRd := rfl
  mode := rfl
  progress := rfl
  frame := rfl
  count := rfl
  capStart := nofun
  useCelsius := rfl
  readingPending := rfl
  cap := h.cap
  tsw := h.tsw
  inbox := h.inbox
  trace := rfl

/-! What the operations read. -/

/-- The interval of an edge that has an edge before it. -/
theorem delta_eq (hv : s.lastEdgeValid = true) (ts : Nat) : s.delta ts = t.delta ts := by
  rw [State.delta, State.delta, h.tsw, h.lastEdgeTime hv]

/-- The window test of a running capture. -/
theorem windowElapsed_eq (hm : s.mode = .capture) (now : Nat) : s.windowElapsed now = t.windowElapsed now := by
  rw [State.windowElapsed, State.windowElapsed, State.elapsed, State.elapsed, h.tsw, h.capStart hm]

/-- The bit that a pop reads has been written since reset (R38 (d), R149). -/
theorem qRead_eq (hi : s.Inv) (hne : s.qRd ≠ s.qWr) : s.qRead s.qRd = t.qRead s.qRd := by
  obtain ⟨-, -, hr⟩ := hi.cursors
  have hpend : 0 < s.pend := Nat.pos_of_ne_zero (mt (State.pend_eq_zero_iff hi.cursors).mp hne)
  obtain ⟨b, hb⟩ := Option.isSome_iff_exists.mp (hi.unread 0 hpend)
  rw [Nat.add_zero, Nat.mod_eq_of_lt hr] at hb
  simp [State.qRead, ← h.qMem, hb]

/-- A frame whose 36 cells have all been written since reset. -/
theorem frameImage_eq (hw : ∀ i < 36, (s.frame.lookup i).isSome = true) : s.frameImage = t.frameImage := by
  refine frame_ext fun i hi => ?_
  obtain ⟨b, hb⟩ := Option.isSome_iff_exists.mp (hw i hi)
  simp [State.frameImage_getMsbD _ hi, State.fRead, ← h.frame, hb]

/-- The reading published from a frame, in the selected unit. -/
theorem reading_publish (F : Frame) : (s.publish F).reading = (t.publish F).reading := by
  simp [State.reading, State.publish, h.useCelsius]

end State.SameUpToUnspecified

/-- The bit that completes a capture writes the last cell that was unwritten (R38 (e), R177). -/
theorem State.Inv.frame_written {s : State} (hi : s.Inv) (hm : s.mode = .capture) (hc : s.count = 35) (b : Bool) :
    ∀ i < 36, ((s.frame.write s.count b).lookup i).isSome = true := by
  intro i hlt
  by_cases hlast : i = s.count.val
  · rw [hlast, Memory.lookup_write_same, Option.isSome_some]
  · have hbelow : i < s.count.val := by
      have hval : s.count.val = 35 := congrArg Fin.val hc
      omega
    exact Memory.isSome_lookup_write _ _ _ _ (hi.captured hm i hbelow)

/-! What R261 asks of one operation. -/

/-- The operation `i` took `s` to `s'` and `t` to `t'`: what R261 lets an observer tell of the two runs. -/
structure State.AgreeAfter (i : Instr) (s t s' t' : State) : Prop where
  same : s'.SameUpToUnspecified t'
  response : i ≠ .take → s'.response = t'.response
  published : s'.trace = some .dFrameOk → s'.reading = t'.reading
  kept : i ≠ .reset → s.reading = t.reading → s'.reading = t'.reading ∧ s'.response = t'.response

namespace State.AgreeAfter

variable {i : Instr} {s t u v : State}

/-- An operation that leaves both reading registers alone and reports the same in both runs. -/
theorem of_emit {r : Option Response} {e : Option TraceEvent} (h : u.SameUpToUnspecified v)
    (hs : u.reading = s.reading := by rfl) (ht : v.reading = t.reading := by rfl)
    (he : e ≠ some .dFrameOk := by decide) : AgreeAfter i s t (u.emit r e) (v.emit r e) where
  same := h.emit r r e
  response _ := rfl
  published hpub := absurd hpub he
  kept _ hst := ⟨hs.trans (hst.trans ht.symm), rfl⟩

/-- An operation that writes the same reading in both runs. -/
theorem of_reading_eq {r : Option Response} {e : Option TraceEvent} (h : u.SameUpToUnspecified v)
    (hr : u.reading = v.reading) : AgreeAfter i s t (u.emit r e) (v.emit r e) where
  same := h.emit r r e
  response _ := rfl
  published _ := hr
  kept _ _ := ⟨hr, rfl⟩

theorem latchEdge (h : AgreeAfter i s t u v) (ts : Nat) : AgreeAfter i s t (u.latchEdge ts) (v.latchEdge ts) :=
  { h with same := h.same.latchEdge ts }

end State.AgreeAfter

/-! EDGE. -/

section
variable {i : Instr} {s t : State} (h : s.SameUpToUnspecified t)
include h

theorem fallingEdge_agreeAfter (d : Nat) : State.AgreeAfter i s t (fallingEdge d s) (fallingEdge d t) := by
  unfold fallingEdge
  split_ifs
  · exact .of_emit (h.setPulse true false)
  · exact .of_emit (h.setPulse false true)
  · exact .of_emit (h.setPulse false false)

theorem risingEdge_agreeAfter (d : Nat) : State.AgreeAfter i s t (risingEdge d s) (risingEdge d t) := by
  unfold risingEdge
  rw [← h.longPending, ← h.shortPending]
  split_ifs
  · exact .of_emit ((h.push false).setPulse false false)
  · exact .of_emit ((h.push true).setPulse false false)
  · exact .of_emit (h.setPulse false false)

theorem classifyEdge_agreeAfter (level : Level) (d : Nat) :
    State.AgreeAfter i s t (classifyEdge level d s) (classifyEdge level d t) := by
  unfold classifyEdge
  split_ifs
  · cases level with
    | low => exact fallingEdge_agreeAfter h d
    | high => exact risingEdge_agreeAfter h d
  · exact .of_emit (h.setPulse false false)

theorem edgeStep_agreeAfter (level : Level) (ts : Nat) :
    State.AgreeAfter i s t (edgeStep level ts s) (edgeStep level ts t) := by
  cases hv : s.lastEdgeValid with
  | false =>
    rw [edgeStep_first level ts hv, edgeStep_first level ts (h.lastEdgeValid ▸ hv)]
    exact .of_emit (h.latchEdge ts)
  | true =>
    rw [edgeStep_later level ts hv, edgeStep_later level ts (h.lastEdgeValid ▸ hv), ← h.delta_eq hv]
    exact (classifyEdge_agreeAfter h level _).latchEdge ts

end

/-! DSTEP. -/

/-- Runs that have the same 36 bits complete the frame alike: the verdict and what is published are the frame's. -/
theorem completeFrame_agreeAfter {i : Instr} {s t u v : State} (h : u.SameUpToUnspecified v)
    (hF : u.frameImage = v.frameImage) (hs : u.reading = s.reading) (ht : v.reading = t.reading) :
    State.AgreeAfter i s t (completeFrame u) (completeFrame v) := by
  unfold completeFrame
  rw [← hF]
  split_ifs
  · exact .of_reading_eq (h.closeCapture.publish _) (h.closeCapture.reading_publish _)
  · exact .of_emit h.closeCapture hs ht

section
variable {i : Instr} {s t : State} (h : s.SameUpToUnspecified t) (hi : s.Inv) (now : Nat)
include h hi

/-- DSTEP in SEARCH mode, by the rows of R180. -/
theorem decoderStep_search_agreeAfter (hm : s.mode = .search) :
    State.AgreeAfter i s t (decoderStep now s) (decoderStep now t) := by
  rw [decoderStep_search now hm, decoderStep_search now (h.mode ▸ hm), ← h.qRd, ← h.qWr, ← h.progress]
  by_cases he : s.qRd = s.qWr
  · rw [if_pos he, if_pos he]
    exact .of_emit h
  · rw [if_neg he, if_neg he, ← h.qRead_eq hi he]
    split_ifs
    · exact .of_emit (h.advanceRead.openCapture now)
    · exact .of_emit (h.advanceRead.setProgress _)
    · exact .of_emit (h.advanceRead.setProgress 0)

/-- DSTEP in CAPTURE mode, by the rows of R180. -/
theorem decoderStep_capture_agreeAfter (hm : s.mode = .capture) :
    State.AgreeAfter i s t (decoderStep now s) (decoderStep now t) := by
  rw [decoderStep_capture now hm, decoderStep_capture now (h.mode ▸ hm), ← h.qRd, ← h.qWr, ← h.count,
    ← h.windowElapsed_eq hm]
  by_cases he : s.qRd = s.qWr
  · rw [if_pos he, if_pos he]
    split_ifs
    · exact .of_emit h.closeCapture
    · exact .of_emit h
  · rw [if_neg he, if_neg he, ← h.qRead_eq hi he]
    have hstored := h.advanceRead.fWrite s.count (s.qRead s.qRd)
    split_ifs with hfull
    · exact completeFrame_agreeAfter hstored (hstored.frameImage_eq (hi.frame_written hm hfull _)) rfl rfl
    · exact .of_emit hstored.closeCapture
    · exact .of_emit (hstored.setCount _)

theorem decoderStep_agreeAfter : State.AgreeAfter i s t (decoderStep now s) (decoderStep now t) := by
  cases hm : s.mode with
  | search => exact decoderStep_search_agreeAfter h hi now hm
  | capture => exact decoderStep_capture_agreeAfter h hi now hm

end

/-! TAKE and RESET, the two that can tell such runs apart. -/

/-- TAKE responds with the reading register, so alike only where the registers are. -/
theorem take_agreeAfter {s t : State} (h : s.SameUpToUnspecified t) :
    State.AgreeAfter .take s t
      (s.clearPending.emit (some (.reading (readingWord s.slotUnit s.slotId s.slotTemp))) none)
      (t.clearPending.emit (some (.reading (readingWord t.slotUnit t.slotId t.slotTemp))) none) where
  same := h.clearPending.emit _ _ none
  response hne := absurd rfl hne
  published := nofun
  kept _ hst := by
    obtain ⟨hid, htemp, hunit⟩ := State.reading_eq_iff.mp hst
    exact ⟨hst, by simp [hid, htemp, hunit]⟩

/-- RESET draws the reading register afresh, so it promises nothing of it. -/
theorem reset_agreeAfter {s t : State} (h : s.SameUpToUnspecified t) :
    State.AgreeAfter .reset s t s.resetBlock t.resetBlock where
  same := h.resetBlock
  response _ := rfl
  published := nofun
  kept hne := absurd rfl hne

/-! The statement. -/

/-- Every operation keeps the two runs alike (R261). -/
theorem exec_agreeAfter (i : Instr) {s t : State} (hi : s.Inv) (h : s.SameUpToUnspecified t) :
    ∃ s' t', exec i s = .next s' ∧ exec i t = .next t' ∧ State.AgreeAfter i s t s' t' := by
  cases i with
  | nop => exact ⟨_, _, exec_nop s, exec_nop t, .of_emit h⟩
  | edge level ts => exact ⟨_, _, exec_edge_next level ts s, exec_edge_next level ts t, edgeStep_agreeAfter h level ts⟩
  | dstep now => exact ⟨_, _, exec_dstep now s, exec_dstep now t, decoderStep_agreeAfter h hi now⟩
  | status => exact ⟨_, _, exec_status s, exec_status t, h.readingPending ▸ .of_emit h⟩
  | take => exact ⟨_, _, exec_take s, exec_take t, take_agreeAfter h⟩
  | config u => exact ⟨_, _, exec_config u s, exec_config u t, .of_emit (h.setUseCelsius u)⟩
  | reset => exact ⟨_, _, exec_reset s, exec_reset t, reset_agreeAfter h⟩

/-- Settles O60, by `exec_agreeAfter`. The invariants of one run are enough: the runs share both memories, so a cell
written in one is written in the other. -/
theorem unspecifiedNeverLeaks : Obligations.UnspecifiedNeverLeaks := by
  intro i s t hs _ h
  obtain ⟨s', t', hexec, hexec', hagree⟩ := exec_agreeAfter i hs h
  refine ⟨s', t', hexec, hexec', hagree.same, hagree.response, fun hpub => ?_, fun hne hid htemp hunit => ?_⟩
  · exact State.reading_eq_iff.mp (hagree.published hpub)
  · obtain ⟨hreading, hresponse⟩ := hagree.kept hne (State.reading_eq_iff.mpr ⟨hid, htemp, hunit⟩)
    obtain ⟨hid', htemp', hunit'⟩ := State.reading_eq_iff.mp hreading
    exact ⟨hid', htemp', hunit', hresponse⟩

end Sys2Proof.Machine
end

section
/-! The encoding (R105 to R110): what each check of a field lets through, the decoder and the encoder as each other's
inverse, and the proofs of the statements about command words. -/

namespace Sys2Proof

variable {w : Nat}

@[simp] theorem Level.ofBit_toBit (level : Level) : Level.ofBit level.toBit = level := by cases level <;> rfl

@[simp] theorem Level.toBit_ofBit (b : Bool) : (Level.ofBit b).toBit = b := by cases b <;> rfl

/-! The checks of the fields that must be 0 (R106). -/

theorem requireArgZero_eq_ok {a : Bool} {i j : Instr} : requireArgZero a i = .ok j ↔ a = false ∧ i = j := by
  cases a <;> simp [requireArgZero]

theorem requireTimeZero_eq_ok {t : Nat} {i j : Instr} : requireTimeZero t i = .ok j ↔ t = 0 ∧ i = j := by
  unfold requireTimeZero
  split <;> simp [*]

theorem requireBothZero_eq_ok {a : Bool} {t : Nat} {i j : Instr} :
    requireBothZero a t i = .ok j ↔ a = false ∧ t = 0 ∧ i = j := by
  cases a <;> simp [requireBothZero, requireTimeZero_eq_ok]

/-! The two directions. -/

/-- The decoder reads an encoded operation back (R105, R106, R108). -/
theorem decode_encode {i : Instr} (h : i.wellFormed w = true) : decode (encode w i) = .ok i := by
  cases i with
  | edge level ts =>
    have hts : ts % 2 ^ w = ts := Nat.mod_eq_of_lt (by simpa [Instr.wellFormed] using h)
    simp [encode, decode_packWord, decodeFields, hts]
  | dstep now =>
    have hnow : now % 2 ^ w = now := Nat.mod_eq_of_lt (by simpa [Instr.wellFormed] using h)
    simp [encode, decode_packWord, decodeFields, requireArgZero, hnow]
  | config u => simp [encode, decode_packWord, decodeFields, requireTimeZero]
  | nop => simp [encode, decode_packWord, decodeFields, requireBothZero, requireTimeZero]
  | status => simp [encode, decode_packWord, decodeFields, requireBothZero, requireTimeZero]
  | take => simp [encode, decode_packWord, decodeFields, requireBothZero, requireTimeZero]
  | reset => simp [encode, decode_packWord, decodeFields, requireBothZero, requireTimeZero]

/-- The encoder gives the decoded word back: the fields that no operand fills are the ones that had to be 0. -/
theorem encode_of_decode {cw : CommandWord w} {i : Instr} (h : decode cw = .ok i) : encode w i = cw := by
  obtain ⟨opc, a, t, rfl⟩ := packWord_surjective cw
  rw [decode_packWord] at h
  have hzero : t.toNat = 0 → t = 0#w := fun ht => BitVec.eq_of_toNat_eq (by simpa using ht)
  rcases opc_cases opc with rfl | rfl | rfl | rfl | rfl | rfl | rfl | rfl
  · obtain ⟨rfl, ht, rfl⟩ := requireBothZero_eq_ok.mp h
    rw [hzero ht]; rfl
  · cases h
    simp [encode]
  · obtain ⟨rfl, rfl⟩ := requireArgZero_eq_ok.mp h
    simp [encode]
  · obtain ⟨rfl, ht, rfl⟩ := requireBothZero_eq_ok.mp h
    rw [hzero ht]; rfl
  · obtain ⟨rfl, ht, rfl⟩ := requireBothZero_eq_ok.mp h
    rw [hzero ht]; rfl
  · obtain ⟨ht, rfl⟩ := requireTimeZero_eq_ok.mp h
    rw [hzero ht]; rfl
  · cases h
  · obtain ⟨rfl, ht, rfl⟩ := requireBothZero_eq_ok.mp h
    rw [hzero ht]; rfl

/-- The operation of a word is the one that is encoded so. -/
theorem decode_eq_ok_iff {cw : CommandWord w} {i : Instr} :
    decode cw = .ok i ↔ i.wellFormed w = true ∧ encode w i = cw :=
  ⟨fun h => ⟨wellFormed_of_decode h, encode_of_decode h⟩, fun ⟨hwf, he⟩ => he ▸ decode_encode hwf⟩

/-- Settles O1: `decode_encode`, and a word and its number decode alike. -/
theorem decodeEncode : Obligations.DecodeEncode := fun _ _ h =>
  ⟨decode_encode h, (decodeNumber_toNat _).trans (decode_encode h)⟩

/-- Settles O2, the other direction of `decode_eq_ok_iff`. -/
theorem encodeDecode : Obligations.EncodeDecode := fun _ _ _ h => decode_eq_ok_iff.mp h

end Sys2Proof
end

section
/-! Invalid command words (R110) and the match and mask table (R107): a word is refused by the check its operation code
makes, and a row of the table compares the fields that the operation has no operand in. -/

namespace Sys2Proof

variable {w : Nat}

/-! What each check refuses (R106, R110). -/

theorem exists_requireArgZero_eq_error {a : Bool} {i : Instr} :
    (∃ why, requireArgZero a i = .error why) ↔ a = true := by
  cases a <;> simp [requireArgZero]

theorem exists_requireTimeZero_eq_error {t : Nat} {i : Instr} :
    (∃ why, requireTimeZero t i = .error why) ↔ t ≠ 0 := by
  unfold requireTimeZero
  split <;> simp [*]

theorem exists_requireBothZero_eq_error {a : Bool} {t : Nat} {i : Instr} :
    (∃ why, requireBothZero a t i = .error why) ↔ a = true ∨ t ≠ 0 := by
  cases a <;> simp [requireBothZero, exists_requireTimeZero_eq_error]

/-- Which fields are refused (R110). -/
theorem exists_decodeFields_eq_error (opc : BitVec 3) (a : Bool) (t : Nat) :
    (∃ why, decodeFields opc.toNat a t = .error why) ↔
      opc = 6 ∨ (a = true ∧ opc ≠ 1 ∧ opc ≠ 5) ∨ (t ≠ 0 ∧ opc ≠ 1 ∧ opc ≠ 2) := by
  rcases opc_cases opc with rfl | rfl | rfl | rfl | rfl | rfl | rfl | rfl <;>
    simp [decodeFields, exists_requireArgZero_eq_error, exists_requireTimeZero_eq_error,
      exists_requireBothZero_eq_error]

/-- Settles O4: the fields of the statement are those the decoder reads. -/
theorem invalidWords : Obligations.InvalidWords := by
  intro w cw
  have ht : fieldT cw ≠ 0#w ↔ (fieldT cw).toNat ≠ 0 := by simp [← BitVec.toNat_inj]
  rw [decode, exists_decodeFields_eq_error, ← ht]
  rfl

/-! The match and mask table (R107). -/

theorem mnemonic_eq_edge_iff {i : Instr} : i.mnemonic = "EDGE" ↔ ∃ level ts, i = .edge level ts := by
  cases i <;> simp [Instr.mnemonic]

theorem mnemonic_eq_dstep_iff {i : Instr} : i.mnemonic = "DSTEP" ↔ ∃ now, i = .dstep now := by
  cases i <;> simp [Instr.mnemonic]

theorem mnemonic_eq_config_iff {i : Instr} : i.mnemonic = "CONFIG" ↔ ∃ u, i = .config u := by
  cases i <;> simp [Instr.mnemonic]

/-- The row of an operation with no operand compares every field. -/
theorem exists_decode_mnemonic_iff_of_fixed (cw : CommandWord 32) {i : Instr} (hwf : i.wellFormed 32 = true)
    (hi : ∀ j : Instr, j.mnemonic = i.mnemonic ↔ j = i := by intro j; cases j <;> simp [Instr.mnemonic]) :
    (∃ j, decode cw = .ok j ∧ j.mnemonic = i.mnemonic) ↔ cw &&& 0xFFFFFFFFF = encode 32 i := by
  have hmask : cw &&& 0xFFFFFFFFF = cw := BitVec.and_allOnes
  rw [hmask]
  constructor
  · rintro ⟨j, hd, hm⟩
    rw [← (hi j).mp hm, encode_of_decode hd]
  · rintro rfl
    exact ⟨i, decode_encode hwf, rfl⟩

/-- A word under a mask that covers `opc`, field by field. -/
theorem packWord_and_opcMask_eq_iff {opc opc' : BitVec 3} {a b a' : Bool} {t m t' : BitVec w} :
    packWord opc a t &&& packWord 7 b m = packWord opc' a' t' ↔ opc = opc' ∧ (a && b) = a' ∧ t &&& m = t' := by
  have hopc : opc &&& 7 = opc := BitVec.and_allOnes
  rw [packWord_and, packWord_inj, hopc]

/-- The row of EDGE compares `opc` alone. -/
theorem exists_decode_edge_iff (cw : CommandWord 32) :
    (∃ i, decode cw = .ok i ∧ i.mnemonic = "EDGE") ↔ cw &&& packWord 7 false 0 = packWord 1 false 0 := by
  obtain ⟨opc, a, t, rfl⟩ := packWord_surjective cw
  rw [packWord_and_opcMask_eq_iff]
  constructor
  · rintro ⟨i, hd, hm⟩
    obtain ⟨level, ts, rfl⟩ := mnemonic_eq_edge_iff.mp hm
    obtain ⟨rfl, -, -⟩ := packWord_inj.mp (encode_of_decode hd)
    simp
  · rintro ⟨rfl, -, -⟩
    exact ⟨_, decode_packWord 1 a t, rfl⟩

/-- The row of DSTEP compares `opc` and `a`. -/
theorem exists_decode_dstep_iff (cw : CommandWord 32) :
    (∃ i, decode cw = .ok i ∧ i.mnemonic = "DSTEP") ↔ cw &&& packWord 7 true 0 = packWord 2 false 0 := by
  obtain ⟨opc, a, t, rfl⟩ := packWord_surjective cw
  rw [packWord_and_opcMask_eq_iff, Bool.and_true]
  constructor
  · rintro ⟨i, hd, hm⟩
    obtain ⟨now, rfl⟩ := mnemonic_eq_dstep_iff.mp hm
    obtain ⟨rfl, rfl, -⟩ := packWord_inj.mp (encode_of_decode hd)
    simp
  · rintro ⟨rfl, rfl, -⟩
    exact ⟨_, decode_packWord 2 false t, rfl⟩

/-- The row of CONFIG compares `opc` and `t`. -/
theorem exists_decode_config_iff (cw : CommandWord 32) :
    (∃ i, decode cw = .ok i ∧ i.mnemonic = "CONFIG") ↔
      cw &&& packWord 7 false (BitVec.allOnes 32) = packWord 5 false 0 := by
  obtain ⟨opc, a, t, rfl⟩ := packWord_surjective cw
  rw [packWord_and_opcMask_eq_iff, BitVec.and_allOnes]
  constructor
  · rintro ⟨i, hd, hm⟩
    obtain ⟨u, rfl⟩ := mnemonic_eq_config_iff.mp hm
    obtain ⟨rfl, -, rfl⟩ := packWord_inj.mp (encode_of_decode hd)
    simp
  · rintro ⟨rfl, -, rfl⟩
    exact ⟨_, decode_packWord 5 a 0, rfl⟩

/-- Settles O3, row by row. -/
theorem decodeMatchesOpcodeTable : Obligations.DecodeMatchesOpcodeTable := by
  intro cw r hr
  simp only [opcodeTable, List.mem_cons, List.not_mem_nil, or_false] at hr
  obtain rfl | rfl | rfl | rfl | rfl | rfl | rfl := hr
  · exact exists_decode_mnemonic_iff_of_fixed cw (i := .nop) rfl
  · exact exists_decode_edge_iff cw
  · exact exists_decode_dstep_iff cw
  · exact exists_decode_mnemonic_iff_of_fixed cw (i := .status) rfl
  · exact exists_decode_mnemonic_iff_of_fixed cw (i := .take) rfl
  · exact exists_decode_config_iff cw
  · exact exists_decode_mnemonic_iff_of_fixed cw (i := .reset) rfl

/-- Settles O5: each word evaluates to its fields. -/
theorem workedEncodings : Obligations.WorkedEncodings := ⟨rfl, rfl, rfl, rfl, rfl⟩

end Sys2Proof

namespace Sys2Proof.Machine

/-! The step (R7). -/

theorem step_of_decodeNumber_ok {s : State} {n : Nat} {rest : List Nat} {i : Instr} (hb : s.inbox = n :: rest)
    (hd : decodeNumber s.tsw n = .ok i) : step s = exec i (s.setInbox rest) := by
  simp [step, hb, hd]

theorem step_of_decodeNumber_error {s : State} {n : Nat} {rest : List Nat} {why : Invalid} (hb : s.inbox = n :: rest)
    (hd : decodeNumber s.tsw n = .error why) : step s = .refused (.invalidCommandWord why) := by
  simp [step, hb, hd]

/-- Settles O6: a word and its number decode alike. -/
theorem stepRunsDecoded : Obligations.StepRunsDecoded := fun _ cw _ _ hb hd =>
  step_of_decodeNumber_ok hb ((decodeNumber_toNat cw).trans hd)

/-- Settles O7: the idle step, the decoder's refusal, and a number too long to be decoded. -/
theorem stepOtherwise : Obligations.StepOtherwise := fun s =>
  ⟨fun hb => by simp [step, hb],
   fun cw _ _ hb hd => step_of_decodeNumber_error hb ((decodeNumber_toNat cw).trans hd),
   fun _ _ hb hlong => step_of_decodeNumber_error hb (if_neg (Nat.not_lt.mpr hlong))⟩

end Sys2Proof.Machine
end

section
/-! EDGE as a whole: one shape for all its branches, its frame (R120), its trace event (R251), when it pushes a bit
(R130), and the proofs of the statements about falling and rising edges. -/

namespace Sys2Proof.Machine

/-! All that an EDGE can do. -/

/-- A rising edge that ends a gap with a flag set pushes 0 exactly when the long flag was set (R130). -/
theorem edgeStep_push (ts : Nat) {s : State} (hv : s.lastEdgeValid = true)
    (hg : 800 < s.delta ts ∧ s.delta ts < 1200) (hf : s.longPending = true ∨ s.shortPending = true) :
    edgeStep .high ts s = (((s.push !s.longPending).setPulse false false).latchEdge ts).emit none
      (some (if s.longPending then .eBit0 else .eBit1)) := by
  rw [edgeStep_later .high ts hv]
  cases hlong : s.longPending with
  | true => rw [classifyEdge_bit0 s hg hlong]; rfl
  | false =>
    have hshort : s.shortPending = true := by simpa [hlong] using hf
    rw [classifyEdge_bit1 s hg hlong hshort]; rfl

/-- An EDGE writes the flags and latches the time; on a rising edge that ends a gap with a flag set, it pushes one bit
first, with an event that says so. The flags end exclusive if they were so before (R32, R120, R130). -/
theorem edgeStep_shape (level : Level) (ts : Nat) (s : State) :
    (∃ a b e, (s.flagsExclusive → ¬(a = true ∧ b = true)) ∧
      edgeStep level ts s = ((s.setPulse a b).latchEdge ts).emit none (some e)) ∨
    (∃ b e, level = .high ∧ (e = .eBit0 ∨ e = .eBit1) ∧
      edgeStep level ts s = (((s.push b).setPulse false false).latchEdge ts).emit none (some e)) := by
  cases hv : s.lastEdgeValid with
  | false => exact .inl ⟨s.shortPending, s.longPending, _, id, edgeStep_first level ts hv⟩
  | true =>
    obtain ⟨a, b, e, hab, h⟩ | ⟨-, -, rfl, hg, hf, -, -⟩ := classifyEdge_shape level (s.delta ts) s
    · exact .inl ⟨a, b, e, fun _ => by simpa using hab, by rw [edgeStep_later level ts hv, h]; rfl⟩
    · exact .inr ⟨_, _, rfl, by split <;> simp, edgeStep_push ts hv hg hf⟩

/-- Settles O17: both shapes of an EDGE write no element but the classifier's, and only the second, of a rising edge,
writes a cell. -/
theorem edgeFrame : Obligations.EdgeFrame := by
  rintro s t level ts ⟨⟩
  obtain ⟨a, b, e, -, h⟩ | ⟨b, e, rfl, -, h⟩ := edgeStep_shape level ts s
  · simp [h, State.sameDecoderOwned, State.sameSurroundings, State.qRead, State.fRead]
  · rw [h]
    refine ⟨by simp [State.sameDecoderOwned], rfl, rfl, by simp [State.sameSurroundings], rfl, fun i hi => ?_,
      fun _ => rfl, nofun⟩
    exact (State.qRead_push s b i).trans (if_neg hi.symm)

/-! The trace event (R251). -/

/-- The interval as the least residue (R11, R122). -/
theorem timeSince_cast (w later earlier : Nat) :
    (timeSince w later earlier : Int) = ((later : Int) - earlier) % 2 ^ w := by
  rw [timeSince, Int.toNat_of_nonneg (Int.emod_nonneg _ (by positivity))]
  push_cast
  rfl

/-- Settles O18: one equation of `Laws/Edge` for each event. -/
theorem edgeTrace : Obligations.EdgeTrace := by
  refine fun s level ts => ⟨_, exec_edge_next level ts s, timeSince_cast _ _ _, ?_⟩
  by_cases hv : s.lastEdgeValid = false
  · rw [edgeStep_first level ts hv, if_pos hv]; rfl
  · rw [edgeStep_later level ts (by simpa using hv), State.latchEdge_trace, if_neg hv]
    by_cases hd : s.delta ts ≤ 400 ∨ 1400 ≤ s.delta ts
    · rw [if_pos hd, classifyEdge_discard level s (by omega)]; rfl
    · rw [if_neg hd]
      cases level with
      | low =>
        rw [if_pos rfl]
        split_ifs
        · rw [classifyEdge_short s (by omega)]; rfl
        · rw [classifyEdge_ambiguous s (by omega)]; rfl
        · rw [classifyEdge_long s (by omega)]; rfl
      | high =>
        rw [if_neg (by decide : Level.high ≠ .low)]
        split_ifs with hgap hl hs
        · rw [classifyEdge_noBit s (by omega) (.inl (by omega))]; rfl
        · rw [classifyEdge_bit0 s (by omega) hl]; rfl
        · rw [classifyEdge_bit1 s (by omega) (by simpa using hl) hs]; rfl
        · rw [classifyEdge_noBit s (by omega) (.inr ⟨by simpa using hl, by simpa using hs⟩)]; rfl

/-! Edges inside the coarse window. -/

/-- A falling edge writes both flags by the class of the interval (R125 to R127, R32). -/
theorem classifyEdge_low {d : Nat} (s : State) (h : 400 < d ∧ d < 1400) :
    ∃ e, classifyEdge .low d s = (s.setPulse (decide (d < 700)) (decide (1100 < d))).emit none (some e) := by
  rcases Nat.lt_or_ge d 700 with h1 | h1
  · have h2 : ¬1100 < d := by omega
    exact ⟨_, by rw [classifyEdge_short s ⟨h.1, h1⟩, decide_eq_true h1, decide_eq_false h2]⟩
  · rcases Nat.lt_or_ge 1100 d with h2 | h2
    · exact ⟨_, by rw [classifyEdge_long s ⟨h2, h.2⟩, decide_eq_false h1.not_gt, decide_eq_true h2]⟩
    · exact ⟨_, by rw [classifyEdge_ambiguous s ⟨h1, h2⟩, decide_eq_false h1.not_gt, decide_eq_false h2.not_gt]⟩

/-- A rising edge pushes the bit of the flag that is set when the interval is a gap, the long flag tested first, and
clears both flags (R128). -/
theorem classifyEdge_high {d : Nat} (s : State) (h : 400 < d ∧ d < 1400) :
    ∃ e, classifyEdge .high d s =
      ((if 800 < d ∧ d < 1200 then
          (if s.longPending then s.push false else if s.shortPending then s.push true else s)
        else s).setPulse false false).emit none (some e) := by
  split_ifs with hg hl hs
  · exact ⟨_, classifyEdge_bit0 s hg hl⟩
  · exact ⟨_, classifyEdge_bit1 s hg (by simpa using hl) hs⟩
  · exact ⟨_, classifyEdge_noBit s h (.inr ⟨by simpa using hl, by simpa using hs⟩)⟩
  · exact ⟨_, classifyEdge_noBit s h (.inl hg)⟩

/-- Settles O13: an edge has been seen before, so of the latch only the time is new. -/
theorem edgeFalling : Obligations.EdgeFalling := by
  intro s ts hv hlo hhi
  obtain ⟨e, h⟩ := classifyEdge_low s ⟨hlo, hhi⟩
  refine ⟨_, execEdge_later .low ts hv, ?_⟩
  rw [h, State.latchEdge_of_valid ts (by simpa using hv)]
  rfl

/-- Settles O14, as O13: a push does not forget the edge before. -/
theorem edgeRising : Obligations.EdgeRising := by
  intro s ts hv hlo hhi
  obtain ⟨e, h⟩ := classifyEdge_high s ⟨hlo, hhi⟩
  refine ⟨_, execEdge_later .high ts hv, ?_⟩
  rw [h, State.latchEdge_of_valid ts]
  · rfl
  · split_ifs <;> exact hv

/-! When an EDGE pushes a bit (R130). -/

/-- No other EDGE moves the write cursor. -/
theorem edgeStep_qWr_of_no_push {level : Level} {ts : Nat} {s : State}
    (h : ¬(s.lastEdgeValid = true ∧ level = .high ∧ 800 < s.delta ts ∧ s.delta ts < 1200 ∧
      (s.shortPending = true ∨ s.longPending = true))) : (edgeStep level ts s).qWr = s.qWr := by
  cases hv : s.lastEdgeValid with
  | false => rw [edgeStep_first level ts hv]; rfl
  | true =>
    rw [edgeStep_later level ts hv]
    obtain ⟨a, b, e, -, hs⟩ | ⟨b, e, hl, hg, hf, -, -⟩ := classifyEdge_shape level (s.delta ts) s
    · rw [hs]; rfl
    · exact absurd ⟨hv, hl, hg.1, hg.2, hf.symm⟩ h

/-- A cursor step moves the cursor, in a queue of more than one cell. -/
theorem State.nextCursor_ne {s : State} {c : Nat} (hcap : 1 < s.cap) (hc : c < s.cap) : s.nextCursor c ≠ c := by
  rw [State.nextCursor_eq s hc]
  split <;> omega

/-- Settles O16: under the conditions of R130 the cursor moves, as the queue has more than one cell, else it stays. -/
theorem edgePushesIff : Obligations.EdgePushesIff := by
  rintro s level ts ⟨hcap, hw, -⟩
  refine ⟨_, exec_edge_next level ts s, ?_⟩
  by_cases h : s.lastEdgeValid = true ∧ level = .high ∧ 800 < s.delta ts ∧ s.delta ts < 1200 ∧
      (s.shortPending = true ∨ s.longPending = true)
  · obtain ⟨hv, rfl, hlo, hhi, hf⟩ := h
    rw [edgeStep_push ts hv ⟨hlo, hhi⟩ hf.symm]
    have hmoved : s.nextCursor s.qWr ≠ s.qWr :=
      State.nextCursor_ne (Nat.lt_of_lt_of_le (by decide) hcap) hw
    exact ⟨iff_of_true hmoved ⟨hv, rfl, hlo, hhi, hf⟩,
      fun _ => ⟨(State.qRead_push s _ s.qWr).trans (if_pos rfl), rfl⟩⟩
  · have hq := edgeStep_qWr_of_no_push h
    exact ⟨iff_of_false (not_not.mpr hq) h, fun hne => absurd hq hne⟩

end Sys2Proof.Machine
end

section
/-! The invariants of R38. Each update of the state keeps them where its operands do, so every shape of an EDGE and
every row of a DSTEP does, and with the decoder's promise that a time has the clock's width every step does. -/

namespace Sys2Proof.Machine

/-- The write cursor is the pending count after the read cursor (R140). -/
theorem State.qRd_add_pend {s : State} (h : s.cursorsLegal) : (s.qRd + s.pend) % s.cap = s.qWr := by
  obtain ⟨-, hw, hr⟩ := h
  rw [State.pend_eq hw hr]
  split
  · rw [show s.qRd + (s.qWr - s.qRd) = s.qWr by omega, Nat.mod_eq_of_lt hw]
  · rw [show s.qRd + (s.qWr + s.cap - s.qRd) = s.qWr + s.cap by omega, Nat.add_mod_right, Nat.mod_eq_of_lt hw]

/-- A push writes the cell that its bit becomes unread in; where it is a lap, nothing is unread (R146, R149). -/
theorem State.unreadWritten_push {s : State} (hc : s.cursorsLegal) (h : s.unreadWritten) (b : Bool) :
    (s.push b).unreadWritten := by
  intro k hk
  rw [State.pend_push hc] at hk
  have hle : k < s.pend + 1 := Nat.lt_of_lt_of_le hk (Nat.mod_le _ _)
  rw [State.push_qMem, State.push_qRd, State.push_cap]
  rcases Nat.lt_succ_iff_lt_or_eq.mp hle with hlt | rfl
  · exact Memory.isSome_lookup_write _ _ _ _ (h k hlt)
  · rw [State.qRd_add_pend hc, Memory.lookup_write_same, Option.isSome_some]

/-- The bits that stay unread after a pop were unread before it (R149). -/
theorem State.unreadWritten_advanceRead {s : State} (hc : s.cursorsLegal) (hne : s.qRd ≠ s.qWr)
    (h : s.unreadWritten) : s.advanceRead.unreadWritten := by
  intro k hk
  have hcell : (s.nextCursor s.qRd + k) % s.cap = (s.qRd + (k + 1)) % s.cap := by
    rw [State.nextCursor, Nat.mod_add_mod, Nat.add_assoc, Nat.add_comm 1 k]
  have hlt : k + 1 < s.pend := by rw [State.pend_advanceRead hc hne]; omega
  exact hcell ▸ h (k + 1) hlt

namespace State.Inv

variable {s : State} (h : s.Inv)
include h

/-! One rule per update of the state. -/

theorem emit (r : Option Response) (e : Option TraceEvent) : (s.emit r e).Inv := { h with }

theorem setInbox (ws : List Nat) : (s.setInbox ws).Inv := { h with }

theorem latchEdge {ts : Nat} (hts : ts < 2 ^ s.tsw) : (s.latchEdge ts).Inv :=
  { h with times := ⟨hts, h.times.2⟩ }

theorem setPulse {a b : Bool} (hab : ¬(a = true ∧ b = true)) : (s.setPulse a b).Inv := { h with flags := hab }

theorem push (b : Bool) : (s.push b).Inv :=
  { h with
    cursors := State.cursorsLegal_push h.cursors b
    memories := ⟨Memory.wf_write b h.memories.1 h.cursors.2.1, h.memories.2⟩
    unread := State.unreadWritten_push h.cursors h.unread b }

theorem advanceRead (hne : s.qRd ≠ s.qWr) : s.advanceRead.Inv :=
  { h with
    cursors := State.cursorsLegal_advanceRead h.cursors
    unread := State.unreadWritten_advanceRead h.cursors hne h.unread }

theorem setProgress (hm : s.mode = .search) (p : Fin 8) : (s.setProgress p).Inv :=
  { h with sequencing := ⟨h.sequencing.1, fun hc => absurd (hm.symm.trans hc) nofun⟩ }

theorem openCapture {now : Nat} (hnow : now < 2 ^ s.tsw) : (s.openCapture now).Inv :=
  { h with
    times := ⟨h.times.1, hnow⟩
    sequencing := ⟨nofun, fun _ => rfl⟩
    captured := fun _ _ hi => absurd hi (Nat.not_lt_zero _) }

theorem fWrite (i : Fin 36) (b : Bool) : (s.fWrite i b).Inv :=
  { h with
    memories := ⟨h.memories.1, Memory.wf_write b h.memories.2 i.isLt⟩
    captured := fun hm j hj => Memory.isSome_lookup_write _ _ _ _ (h.captured hm j hj) }

/-- The count may go up when the cell it passes has been written (R174, R177). -/
theorem setCount_succ (hm : s.mode = .capture) (hc : s.count ≠ 35)
    (hw : (s.frame.lookup s.count).isSome = true) : (s.setCount (s.count + 1)).Inv :=
  { h with
    sequencing := ⟨fun hs => absurd (hs.symm.trans hm) nofun, h.sequencing.2⟩
    captured := fun _ i hi => by
      have hi : i < (s.count + 1).val := hi
      rw [count_succ (not_not.mp (mt count_eq_last.mpr hc))] at hi
      rcases Nat.lt_succ_iff_lt_or_eq.mp hi with hlt | rfl
      · exact h.captured hm i hlt
      · exact hw }

theorem closeCapture : s.closeCapture.Inv :=
  { h with sequencing := ⟨fun _ => rfl, nofun⟩, captured := nofun }

theorem publish (F : Frame) : (s.publish F).Inv := { h with }

theorem clearPending : s.clearPending.Inv := { h with }

theorem setUseCelsius (u : Bool) : (s.setUseCelsius u).Inv := { h with }

end State.Inv

/-- The state after a reset, for admissible parameters (R260). -/
theorem State.afterReset_inv {tsw cap : Nat} (ht : windowUs < 2 ^ tsw) (hc : Config.minCap ≤ cap) (n : Nat) :
    (State.afterReset tsw cap n).Inv where
  clock := ht
  times := ⟨BitVec.isLt _, BitVec.isLt _⟩
  cursors :=
    have hpos : 0 < cap := Nat.lt_of_lt_of_le (by decide) hc
    ⟨hc, hpos, hpos⟩
  sequencing := ⟨fun _ => rfl, nofun⟩
  flags := nofun
  memories := ⟨Memory.wf_nil _, Memory.wf_nil _⟩
  unread := fun k hk => by
    have hpend : (State.afterReset tsw cap n).pend = 0 := by simp [State.pend, State.afterReset]
    omega
  captured := nofun

/-- Settles O56, for the default parameters. -/
theorem resetInv : Obligations.ResetInv := State.afterReset_inv (by decide) (by decide) 0

/-! The operations. -/

theorem edgeStep_inv {s : State} (h : s.Inv) (level : Level) {ts : Nat} (hts : ts < 2 ^ s.tsw) :
    (edgeStep level ts s).Inv := by
  obtain ⟨a, b, e, hab, hs⟩ | ⟨b, e, -, -, hs⟩ := edgeStep_shape level ts s
  · rw [hs]
    exact ((h.setPulse (hab h.flags)).latchEdge hts).emit _ _
  · rw [hs]
    exact (((h.push b).setPulse (a := false) (by decide)).latchEdge hts).emit _ _

theorem completeFrame_inv {s : State} (h : s.Inv) : (completeFrame s).Inv := by
  obtain ⟨-, hs⟩ | ⟨-, hs⟩ := completeFrame_cases s
  · rw [hs]
    exact (h.closeCapture.publish _).emit _ _
  · rw [hs]
    exact h.closeCapture.emit _ _

theorem decoderStep_search_inv {s : State} (h : s.Inv) (hm : s.mode = .search) {now : Nat} (hnow : now < 2 ^ s.tsw) :
    (decoderStep now s).Inv := by
  rw [decoderStep_search now hm]
  split_ifs with he
  · exact h.emit _ _
  · exact ((h.advanceRead he).openCapture hnow).emit _ _
  · exact ((h.advanceRead he).setProgress hm _).emit _ _
  · exact ((h.advanceRead he).setProgress hm 0).emit _ _

theorem decoderStep_capture_inv {s : State} (h : s.Inv) (hm : s.mode = .capture) (now : Nat) :
    (decoderStep now s).Inv := by
  rw [decoderStep_capture now hm]
  split_ifs with he _ hc
  · exact h.closeCapture.emit _ _
  · exact h.emit _ _
  all_goals have hstored := (h.advanceRead he).fWrite s.count (s.qRead s.qRd)
  · exact completeFrame_inv hstored
  · exact hstored.closeCapture.emit _ _
  · exact (hstored.setCount_succ hm hc (by simp)).emit _ _

/-- Every operation of a machine keeps the invariants. -/
theorem exec_inv {i : Instr} {s t : State} (h : s.Inv) (hi : i.wellFormed s.tsw = true) (ht : exec i s = .next t) :
    t.Inv := by
  cases i with
  | nop => cases ht; exact h.emit _ _
  | edge level ts => cases ht; exact edgeStep_inv h level (by simpa [Instr.wellFormed] using hi)
  | dstep now =>
    have hnow : now < 2 ^ s.tsw := by simpa [Instr.wellFormed] using hi
    cases ht
    cases hm : s.mode with
    | search => exact decoderStep_search_inv h hm hnow
    | capture => exact decoderStep_capture_inv h hm now
  | status => cases ht; exact h.emit _ _
  | take => cases ht; exact h.clearPending.emit _ _
  | config u => cases ht; exact (h.setUseCelsius u).emit _ _
  | reset =>
    cases ht
    have hreset := State.afterReset_inv h.clock h.cursors.1 (s.resets + 1)
    exact hreset.setInbox s.inbox

/-- Settles O55: what a step applies is a decoded operation, whose times have the clock's width. -/
theorem stepKeepsInv : Obligations.StepKeepsInv := by
  intro s t h ht
  obtain ⟨-, hs⟩ | ⟨n, rest, i, -, hd, hs⟩ | ⟨n, rest, why, -, -, hs⟩ := step_cases s
  · rw [hs] at ht; cases ht; exact h
  · obtain ⟨cw, -, hcw⟩ := decodeNumber_ok hd
    exact exec_inv (h.setInbox rest) (wellFormed_of_decode hcw) (hs ▸ ht)
  · rw [hs] at ht; cases ht

end Sys2Proof.Machine
end

section
/-! DSTEP as a whole: the rows of R180 one by one, its frame (R156, R170), when it publishes (R175), and the proofs of
the statements about a match, a capture and the trace events. -/

namespace Sys2Proof.Machine

/-- The pop of a capture with its bit stored (R170, R173): what the rows of R180 in CAPTURE mode go on from. -/
def State.storeBit (s : State) : State := s.advanceRead.fWrite s.count (s.qRead s.qRd)

/-! The rows of R180 that leave SEARCH or belong to CAPTURE. -/

section
variable (now : Nat) {s : State}

/-- The eighth bit matches (R158). -/
theorem decoderStep_search_match (hm : s.mode = .search) (hne : s.qRd ≠ s.qWr)
    (hb : s.qRead s.qRd = preambleBit s.progress) (hp : s.progress = 7) :
    decoderStep now s = (s.advanceRead.openCapture now).emit none (some .dMatch) := by
  rw [decoderStep_search now hm, if_neg hne, if_pos hb, if_pos hp]

section
variable (hm : s.mode = .capture)
include hm

/-- The 36th bit (R175). -/
theorem decoderStep_capture_complete (hne : s.qRd ≠ s.qWr) (hc : s.count = 35) :
    decoderStep now s = completeFrame s.storeBit := by
  rw [decoderStep_capture now hm, if_neg hne, if_pos hc]; rfl

/-- Any other bit, in the open window (R174). -/
theorem decoderStep_capture_continue (hne : s.qRd ≠ s.qWr) (hc : s.count.val < 35) (hw : s.elapsed now < 1000000) :
    decoderStep now s = (s.storeBit.setCount (s.count + 1)).emit none (some .dFbit) := by
  have hopen : ¬s.windowElapsed now = true := by rw [State.windowElapsed_iff]; omega
  rw [decoderStep_capture now hm, if_neg hne, if_neg (mt count_eq_last.mp (not_not.mpr hc)), if_neg hopen]; rfl

/-- Any other bit, from one second on (R176). -/
theorem decoderStep_capture_timeout (hne : s.qRd ≠ s.qWr) (hc : s.count.val < 35) (hw : 1000000 ≤ s.elapsed now) :
    decoderStep now s = abandonFrame s.storeBit := by
  rw [decoderStep_capture now hm, if_neg hne, if_neg (mt count_eq_last.mp (not_not.mpr hc)),
    if_pos ((s.windowElapsed_iff now).mpr hw)]; rfl

/-- Nothing to pop, in the open window (R172). -/
theorem decoderStep_capture_wait (he : s.qRd = s.qWr) (hw : s.elapsed now < 1000000) :
    decoderStep now s = s.emit none (some .dWait) := by
  have hopen : ¬s.windowElapsed now = true := by rw [State.windowElapsed_iff]; omega
  rw [decoderStep_capture now hm, if_pos he, if_neg hopen]

/-- Nothing to pop, from one second on (R176). -/
theorem decoderStep_capture_expire (he : s.qRd = s.qWr) (hw : 1000000 ≤ s.elapsed now) :
    decoderStep now s = abandonFrame s := by
  rw [decoderStep_capture now hm, if_pos he, if_pos ((s.windowElapsed_iff now).mpr hw)]

end

/-! What a DSTEP leaves unchanged. -/

/-- Completing a frame keeps its bits. -/
@[simp] theorem completeFrame_frame (s : State) : (completeFrame s).frame = s.frame := by
  obtain ⟨-, h⟩ | ⟨-, h⟩ := completeFrame_cases s <;> rw [h] <;> rfl

@[simp] theorem completeFrame_frameImage (s : State) : (completeFrame s).frameImage = s.frameImage := by
  obtain ⟨-, h⟩ | ⟨-, h⟩ := completeFrame_cases s <;> rw [h] <;> rfl

/-- The two states differ at most in what DSTEP owns and in the outputs (the Owner column of R20). -/
def State.sameOutsideDecoder (s t : State) : Prop :=
  s.sameInterruptOwned t ∧ t.useCelsius = s.useCelsius ∧ s.sameSurroundings t

theorem completeFrame_keeps (s : State) :
    s.sameOutsideDecoder (completeFrame s) ∧ (completeFrame s).response = none := by
  obtain ⟨-, h⟩ | ⟨-, h⟩ := completeFrame_cases s <;>
    simp [h, State.sameOutsideDecoder, State.sameInterruptOwned, State.sameSurroundings]

theorem abandonFrame_keeps (s : State) :
    s.sameOutsideDecoder (abandonFrame s) ∧ (abandonFrame s).response = none := by
  simp [abandonFrame, State.sameOutsideDecoder, State.sameInterruptOwned, State.sameSurroundings]

/-- A DSTEP writes only what it owns, and has no response (R36, R156, R170). -/
theorem decoderStep_keeps (s : State) :
    s.sameOutsideDecoder (decoderStep now s) ∧ (decoderStep now s).response = none := by
  cases hm : s.mode with
  | search =>
    rw [decoderStep_search now hm]
    split_ifs <;> simp [State.sameOutsideDecoder, State.sameInterruptOwned, State.sameSurroundings]
  | capture =>
    rw [decoderStep_capture now hm]
    split_ifs
    · exact abandonFrame_keeps s
    · simp [State.sameOutsideDecoder, State.sameInterruptOwned, State.sameSurroundings]
    · exact completeFrame_keeps s.storeBit
    · exact abandonFrame_keeps s.storeBit
    · simp [State.sameOutsideDecoder, State.sameInterruptOwned, State.sameSurroundings]

/-- In SEARCH and on an empty queue a DSTEP writes no cell of the frame (R156, R172). -/
theorem decoderStep_frame_of_no_bit (h : s.mode = .search ∨ s.qRd = s.qWr) : (decoderStep now s).frame = s.frame := by
  cases hm : s.mode with
  | search =>
    rw [decoderStep_search now hm]
    split_ifs <;> rfl
  | capture =>
    have he : s.qRd = s.qWr := h.resolve_left (by simp [hm])
    rw [decoderStep_capture now hm, if_pos he]
    split_ifs <;> rfl

/-- A DSTEP in CAPTURE that pops a bit stores it and writes no other cell, whatever becomes of the frame (R173). -/
theorem decoderStep_frame_of_bit (hm : s.mode = .capture) (hne : s.qRd ≠ s.qWr) :
    (decoderStep now s).frame = s.storeBit.frame := by
  rw [decoderStep_capture now hm, if_neg hne]
  split_ifs
  · exact completeFrame_frame s.storeBit
  · rfl
  · rfl

/-- The frame after a DSTEP in CAPTURE that pops a bit, cell by cell (R173). -/
theorem decoderStep_fRead_of_bit (hm : s.mode = .capture) (hne : s.qRd ≠ s.qWr) (i : Nat) :
    (decoderStep now s).fRead i = if s.count.val = i then s.qRead s.qRd else s.fRead i := by
  obtain ⟨⟨-, -, -, -, hresets, -⟩, -⟩ := decoderStep_keeps now s
  rw [State.fRead_congr (s := s.storeBit) (decoderStep_frame_of_bit now hm hne) hresets]
  exact s.advanceRead.fRead_fWrite _ _ _

/-- In CAPTURE a DSTEP keeps the progress and the start of the window (R170). -/
theorem decoderStep_capture_keeps (hm : s.mode = .capture) :
    (decoderStep now s).progress = s.progress ∧ (decoderStep now s).capStart = s.capStart := by
  have hcomplete (u : State) : (completeFrame u).progress = u.progress ∧ (completeFrame u).capStart = u.capStart := by
    obtain ⟨-, h⟩ | ⟨-, h⟩ := completeFrame_cases u <;> simp [h]
  rw [decoderStep_capture now hm]
  split_ifs
  · simp [abandonFrame]
  · simp
  · simp [hcomplete]
  · simp [abandonFrame]
  · simp

end

/-! When a DSTEP publishes (R175, R200). -/

/-- The DSTEP that took `s` to `t` published a frame whose checksum holds, with its 36th bit. -/
structure State.PublishedBy (s t : State) : Prop where
  trace : t.trace = some .dFrameOk
  pending : t.readingPending = true
  mode : s.mode = .capture
  popped : s.qRd ≠ s.qWr
  full : s.count = 35
  valid : checksumOk t.frameImage = true

/-- A DSTEP either publishes a valid frame, or has another event and keeps the reading register and the pending flag. -/
theorem decoderStep_publishes_or_keeps (now : Nat) (s : State) :
    s.PublishedBy (decoderStep now s) ∨
      ((decoderStep now s).trace ≠ some .dFrameOk ∧ (decoderStep now s).reading = s.reading ∧
        (decoderStep now s).readingPending = s.readingPending) := by
  cases hm : s.mode with
  | search =>
    rw [decoderStep_search now hm]
    right
    split_ifs <;> simp [State.reading]
  | capture =>
    by_cases hfull : s.qRd ≠ s.qWr ∧ s.count = 35
    · obtain ⟨hne, hc⟩ := hfull
      rw [decoderStep_capture_complete now hm hne hc]
      obtain ⟨hok, h⟩ | ⟨-, h⟩ := completeFrame_cases s.storeBit
      · exact .inl ⟨by simp [h], by simp [h], hm, hne, hc, by rwa [completeFrame_frameImage]⟩
      · exact .inr (by rw [h]; simp [State.reading, State.storeBit])
    · right
      rw [decoderStep_capture now hm]
      split_ifs with he _ hc
      · simp [abandonFrame, State.reading]
      · simp [State.reading]
      · exact absurd ⟨he, hc⟩ hfull
      · simp [abandonFrame, State.reading]
      · simp [State.reading]

/-! The statements. -/

/-- Settles O35, from the frame of a DSTEP, its one frame cell, and what it keeps unless it publishes. -/
theorem decoderFrame : Obligations.DecoderFrame := by
  rintro s t now ⟨⟩
  obtain ⟨⟨howned, hunit, hsame⟩, hresponse⟩ := decoderStep_keeps now s
  have ⟨_, _, _, _, hqMem, _⟩ := howned
  have ⟨_, _, hresets, _⟩ := hsame
  refine ⟨howned, hunit, hsame, hresponse, State.qRead_congr hqMem hresets, fun i hi => ?_,
    fun h => State.fRead_congr (decoderStep_frame_of_no_bit now h) hresets, decoderStep_capture_keeps now,
    fun hkeep => ?_⟩
  · by_cases h : s.mode = .search ∨ s.qRd = s.qWr
    · exact State.fRead_congr (decoderStep_frame_of_no_bit now h) hresets i
    · obtain ⟨hm, hne⟩ := not_or.mp h
      have hm : s.mode = .capture := by cases h : s.mode <;> simp_all
      rw [decoderStep_fRead_of_bit now hm hne, if_neg hi.symm]
  · obtain hpub | ⟨-, hreading, hpending⟩ := decoderStep_publishes_or_keeps now s
    · exact absurd hpub.trace hkeep
    · obtain ⟨hid, htemp, hslot⟩ := State.reading_eq_iff.mp hreading
      exact ⟨hid, htemp, hslot, hpending⟩

/-- Settles O28: the window opens at `now`, which is what the elapsed time is measured from. -/
theorem searchMatch : Obligations.SearchMatch := by
  intro s now hm hne hp hb
  have hb : s.qRead s.qRd = preambleBit s.progress := by rw [hb, hp]; rfl
  refine ⟨_, exec_dstep now s, ?_⟩
  rw [decoderStep_search_match now hm hne hb hp]
  exact ⟨rfl, fun later => timeSince_cast _ _ _⟩

/-- Settles O31: what becomes of the frame does not change its cells. -/
theorem captureStoresBit : Obligations.CaptureStoresBit := fun s now hm hne =>
  ⟨_, exec_dstep now s, by rw [decoderStep_fRead_of_bit now hm hne, if_pos rfl], s.count.isLt,
    fun i hi => by rw [decoderStep_fRead_of_bit now hm hne, if_neg hi.symm]⟩

/-- Settles O32, one row of R180 for each part. -/
theorem captureContinues : Obligations.CaptureContinues := by
  refine fun s now hm hw => ⟨fun hne hc => ⟨_, exec_dstep now s, ?_⟩, fun he => ⟨_, exec_dstep now s, ?_⟩⟩
  · rw [decoderStep_capture_continue now hm hne hc hw]
    exact ⟨count_succ hc, rfl⟩
  · rw [decoderStep_capture_wait now hm he hw, State.quiet_emit]

/-- Settles O33, one row of R180 for each part. -/
theorem captureTimesOut : Obligations.CaptureTimesOut := by
  refine fun s now hm hw => ⟨fun hne hc => ⟨_, exec_dstep now s, ?_⟩, fun he => ⟨_, exec_dstep now s, ?_⟩⟩
  · rw [decoderStep_capture_timeout now hm hne hc hw]
    rfl
  · rw [decoderStep_capture_expire now hm he hw]
    rfl

/-- Settles O34: the completed frame is the one with the popped bit stored as its last. -/
theorem captureCompletes : Obligations.CaptureCompletes := by
  intro s now hm hne hc
  have hcell (i : Nat) : s.storeBit.fRead i = if 35 = i then s.qRead s.qRd else s.fRead i := by
    have hlast : s.count.val = 35 := congrArg Fin.val hc
    exact hlast ▸ s.advanceRead.fRead_fWrite _ _ _
  refine ⟨_, s.storeBit.frameImage, exec_dstep now s, fun i hi => ?_, ?_, ?_, ?_⟩
  · rw [State.frameImage_getMsbD _ (by omega), hcell, if_neg (by omega)]
  · rw [State.frameImage_getMsbD _ (by omega), hcell, if_pos rfl]
  · rw [decoderStep_capture_complete now hm hne hc, completeFrame_frameImage]
  · rw [decoderStep_capture_complete now hm hne hc]
    obtain ⟨hok, h⟩ | ⟨hok, h⟩ := completeFrame_cases s.storeBit
    · rw [h, if_pos hok]; rfl
    · rw [h, if_neg (by simp [hok])]; rfl

/-- Settles O36, row by row. -/
theorem decoderTrace : Obligations.DecoderTrace := by
  refine fun s now => ⟨_, exec_dstep now s, ?_⟩
  cases hm : s.mode with
  | search =>
    dsimp only
    by_cases he : s.qRd = s.qWr
    · rw [decoderStep_search_idle now hm he, if_pos he]; rfl
    · by_cases hb : s.qRead s.qRd = preambleBit s.progress
      · rw [if_neg he, if_neg (not_not.mpr hb)]
        by_cases hp : s.progress = 7
        · rw [decoderStep_search_match now hm he hb hp, if_pos hp]; rfl
        · rw [decoderStep_search_advance now hm he hb hp, if_neg hp]; rfl
      · rw [decoderStep_search_mismatch now hm he hb, if_neg he, if_pos hb]; rfl
  | capture =>
    dsimp only
    by_cases hfull : s.qRd ≠ s.qWr ∧ s.count = 35
    · rw [if_pos hfull, decoderStep_capture_complete now hm hfull.1 hfull.2]
      obtain ⟨hok, h⟩ | ⟨hok, h⟩ := completeFrame_cases s.storeBit
      · rw [h]; exact congrArg some (if_pos hok).symm
      · rw [h]; exact congrArg some (if_neg (by rw [Bool.not_eq_true]; exact hok)).symm
    · rw [if_neg hfull]
      by_cases he : s.qRd = s.qWr
      · by_cases hw : 1000000 ≤ s.elapsed now
        · rw [decoderStep_capture_expire now hm he hw, if_pos hw]; rfl
        · rw [decoderStep_capture_wait now hm he (by omega), if_neg hw, if_pos he]; rfl
      · have hc : s.count.val < 35 := not_not.mp fun hc => hfull ⟨he, count_eq_last.mpr hc⟩
        by_cases hw : 1000000 ≤ s.elapsed now
        · rw [decoderStep_capture_timeout now hm he hc hw, if_pos hw]; rfl
        · rw [decoderStep_capture_continue now hm he hc (by omega), if_neg hw, if_neg he]; rfl

end Sys2Proof.Machine
end

section
/-! The published temperature (R203 to R208) and the response word of TAKE (R114). -/

namespace Sys2Proof.Machine

/-- A nibble is a slice of four bits (R96). -/
theorem nibbleValue_eq_extractLsb' (F : Frame) {n : Nat} (hn : n < 9) :
    nibbleValue F n = (F.extractLsb' (36 - (4 * n + 4)) 4).toNat := by
  rw [frameSlice_eq_sum F (4 * n) 4 (by omega)]
  simp [nibbleValue, Finset.sum_range_succ]

theorem tempFahrenheit_le (F : Frame) : tempFahrenheit F ≤ 166665 := by
  have h3 := nibbleValue_lt F 3
  have h4 := nibbleValue_lt F 4
  have h5 := nibbleValue_lt F 5
  have h6 := nibbleValue_lt F 6
  have h7 := nibbleValue_lt F 7
  unfold tempFahrenheit
  omega

/-- Settles O43: each nibble is a slice of the frame, and at most 15. -/
theorem fahrenheitValue : Obligations.FahrenheitValue := fun F => by
  refine ⟨?_, tempFahrenheit_le F⟩
  simp [tempFahrenheit, nibbleValue_eq_extractLsb']

/-- Settles O44: the numerator is odd and the denominator even, so the remainder of the floor is odd and neither bound is
met. -/
theorem celsiusNearest : Obligations.CelsiusNearest := fun tF => by
  unfold celsiusOf
  omega

/-- The range of a published temperature, by unit (R207). -/
theorem publishedTemp_bounds (u : Bool) (F : Frame) :
    -17778 ≤ publishedTemp u F ∧ publishedTemp u F ≤ 166665 ∧ (u = true → publishedTemp u F ≤ 74814) ∧
      (u = false → 0 ≤ publishedTemp u F) := by
  have hle := tempFahrenheit_le F
  cases u with
  | false => simp [publishedTemp]; omega
  | true => simp [publishedTemp, celsiusOf]; omega

/-- The published temperature is read back from its register as it was (R204, R207). -/
theorem publishedTemp_toInt (u : Bool) (F : Frame) :
    (BitVec.ofInt 19 (publishedTemp u F)).toInt = publishedTemp u F := by
  obtain ⟨hlo, hhi, -⟩ := publishedTemp_bounds u F
  exact BitVec.toInt_ofInt_eq_self (by decide) (by norm_num; omega) (by norm_num; omega)

/-- Settles O45: the range fits 19 signed bits. -/
theorem temperatureFits : Obligations.TemperatureFits := fun u F => ⟨publishedTemp_toInt u F, publishedTemp_bounds u F⟩

/-- Settles O46, in each unit. -/
theorem publishWrites : Obligations.PublishWrites := by
  intro s F
  cases hu : s.useCelsius with
  | true => simp [State.publish, State.writeSlot, publishedTemp, hu, Scale.ofBit]
  | false => simp [State.publish, State.writeSlot, publishedTemp, hu, Scale.ofBit]

/-- The response word bit by bit: temperature, ID and unit at their places (R114). -/
theorem readingWord_getLsbD (u : Scale) (d : BitVec 7) (x : BitVec 19) (i : Nat) :
    (readingWord u d x).getLsbD i =
      if i < 19 then x.getLsbD i else if i - 19 < 7 then d.getLsbD (i - 19)
      else (BitVec.ofBool u.toBit).getLsbD (i - 19 - 7) := by
  have h : (readingWord u d x).getLsbD i = ((BitVec.ofBool u.toBit ++ d) ++ x : BitVec (1 + 7 + 19)).getLsbD i := rfl
  rw [h, BitVec.getLsbD_append, BitVec.getLsbD_append]

/-- Settles O50, bit by bit. -/
theorem readingWordFields : Obligations.ReadingWordFields := by
  intro u d x
  refine ⟨?_, ?_, ?_⟩
  · rw [readingWord_getLsbD]
    simp
  · refine BitVec.eq_of_getLsbD_eq fun i hi => ?_
    rw [BitVec.getLsbD_extractLsb', readingWord_getLsbD]
    simp [hi]
  · refine BitVec.eq_of_getLsbD_eq fun i hi => ?_
    rw [BitVec.getLsbD_extractLsb', readingWord_getLsbD]
    simp [hi]

end Sys2Proof.Machine
end

section
/-! The host operations and RESET (R222 to R229, R260): what they write, and the proofs of the statements about them. -/

namespace Sys2Proof.Machine

/-- Settles O9: every value named is a constant of `State.afterReset`. -/
theorem resetState : Obligations.ResetState :=
  ⟨rfl, rfl, rfl, rfl, rfl, rfl, rfl, rfl, rfl, rfl, rfl, rfl, rfl, fun _ => rfl, fun _ => rfl⟩

/-- Settles O10: the fields after RESET are the rules of `Laws/State`; a cell that is not listed reads as the draw. -/
theorem resetOperation : Obligations.ResetOperation := fun s =>
  ⟨_, exec_reset s, by simp [State.qRead, State.fRead, Memory.lookup]⟩

/-- Settles O49, by the arm of TAKE. -/
theorem takeResponds : Obligations.TakeResponds := fun s => ⟨_, exec_take s, rfl, rfl⟩

/-- Settles O52, by the arm of CONFIG. -/
theorem configWrites : Obligations.ConfigWrites := fun s u => ⟨_, exec_config u s, rfl, rfl⟩

/-- Settles O53: NOP only emits. -/
theorem nopDoesNothing : Obligations.NopDoesNothing := fun s => ⟨_, exec_nop s, s.quiet_emit _ _, rfl, rfl⟩

/-- Settles O54: two of them write nothing but the outputs, TAKE the pending flag and CONFIG the unit selection. -/
theorem hostOperationsFrame : Obligations.HostOperationsFrame := by
  rintro i s t (rfl | rfl | rfl | ⟨u, rfl⟩) ⟨⟩
  all_goals simp [State.sameInterruptOwned, State.sameDecoderOwned, State.sameSurroundings, State.qRead, State.fRead]

end Sys2Proof.Machine
end

section
/-! What may change the reading register and the one-bit registers (R23, R31, R33, R200), over all operations. -/

namespace Sys2Proof.Machine

/-- An EDGE keeps the reading register, the pending flag and the unit selection (R36). -/
theorem edgeStep_keeps_reading (level : Level) (ts : Nat) (s : State) :
    (edgeStep level ts s).reading = s.reading ∧ (edgeStep level ts s).readingPending = s.readingPending ∧
      (edgeStep level ts s).useCelsius = s.useCelsius := by
  obtain ⟨a, b, e, -, h⟩ | ⟨b, e, -, -, h⟩ := edgeStep_shape level ts s
  · rw [h]; exact ⟨rfl, rfl, rfl⟩
  · rw [h]; exact ⟨rfl, rfl, rfl⟩

/-- Only RESET and a DSTEP that publishes change the reading register (R200). -/
theorem exec_reading {i : Instr} {s t : State} (h : exec i s = .next t) :
    t.reading = s.reading ∨ i = .reset ∨ ∃ now, i = .dstep now ∧ s.PublishedBy t := by
  cases i with
  | nop => cases h; exact .inl rfl
  | edge level ts => cases h; exact .inl (edgeStep_keeps_reading level ts s).1
  | dstep now =>
    cases h
    obtain hpub | ⟨-, hreading, -⟩ := decoderStep_publishes_or_keeps now s
    · exact .inr (.inr ⟨now, rfl, hpub⟩)
    · exact .inl hreading
  | status => cases h; exact .inl rfl
  | take => cases h; exact .inl rfl
  | config u => cases h; exact .inl rfl
  | reset => exact .inr (.inl rfl)

/-- Settles O47: `State.PublishedBy` is what the statement asks of the DSTEP. -/
theorem readingOnlyFromValidFrame : Obligations.ReadingOnlyFromValidFrame := by
  intro i s t h hchanged
  obtain hkeep | rfl | ⟨now, rfl, hpub⟩ := exec_reading h
  · obtain ⟨hid, htemp, hunit⟩ := State.reading_eq_iff.mp hkeep
    simp [hid, htemp, hunit] at hchanged
  · exact .inl rfl
  · exact .inr ⟨now, rfl, hpub.mode, hpub.popped, hpub.full, hpub.valid⟩

/-- Operations that neither reset nor publish keep the reading register. -/
theorem applyAll_reading {is : List Instr} {s t : State} (hreset : .reset ∉ is) (hpub : .dFrameOk ∉ tracesOf is s)
    (h : applyAll is s = .next t) : t.reading = s.reading := by
  induction is generalizing s with
  | nil => cases h; rfl
  | cons i is ih =>
    obtain ⟨u, hu⟩ := exec_exists_next i s
    simp only [applyAll, tracesOf, hu, List.mem_append, Option.mem_toList, List.mem_cons, not_or] at h hpub hreset
    obtain ⟨hi, his⟩ := hreset
    obtain ⟨he, hes⟩ := hpub
    rw [ih his hes h]
    obtain hkeep | rfl | ⟨-, -, hp⟩ := exec_reading hu
    · exact hkeep
    · exact absurd rfl hi
    · exact absurd hp.trace he

/-- Settles O51: TAKE responds with the reading register, and keeps it. -/
theorem takeAgain : Obligations.TakeAgain := by
  rintro s t u v is hreset hpub ⟨⟩ his ⟨⟩
  obtain ⟨hid, htemp, hunit⟩ := State.reading_eq_iff.mp (applyAll_reading hreset hpub his)
  simp [hid, htemp, hunit]

/-- Settles O57, operation by operation. -/
theorem oneBitRegisters : Obligations.OneBitRegisters := by
  intro i s t h
  cases i with
  | nop => cases h; simp_all
  | edge level ts =>
    cases h
    obtain ⟨hvalid, -, -⟩ := edgeStep_latched level ts s
    obtain ⟨-, hpending, hunit⟩ := edgeStep_keeps_reading level ts s
    simp_all
  | dstep now =>
    cases h
    obtain ⟨⟨⟨hvalid, -⟩, hunit, -⟩, -⟩ := decoderStep_keeps now s
    obtain hpub | ⟨-, -, hpending⟩ := decoderStep_publishes_or_keeps now s
    · simp_all [hpub.pending, hpub.trace]
    · simp_all
  | status => cases h; simp_all
  | take => cases h; simp
  | config u => cases h; simp_all
  | reset => cases h; simp

end Sys2Proof.Machine
end

section
/-! The line code (R90, R91, R119): the two edges of a bit push that bit, so the edges of a list of bits push the list;
and the proof of the queue's first-in-first-out statement. -/

namespace Sys2Proof.Machine

/-- Settles O25: a push that is no lap adds its bit behind, and a pop takes the first. -/
theorem queueFifo : Obligations.QueueFifo := fun s h =>
  ⟨fun b hroom => State.unread_push h hroom b,
   fun hp =>
    have hne := s.hasPending_iff.mp hp
    ⟨_, _, State.pop_some hne, State.unread_of_pending h hne⟩,
   fun he => State.pop_none (s.hasPending_false_iff.mp he)⟩

/-! Times of a signal (R119). -/

theorem clockAfter_clockAfter (w t a b : Nat) : clockAfter w (clockAfter w t a) b = clockAfter w t (a + b) := by
  simp only [clockAfter, Nat.mod_add_mod, Nat.add_assoc]

/-- The interval between two times of a signal is the true one, wrapped or not (R122). -/
theorem State.delta_clockAfter {s : State} (hc : s.clockLegal) {d : Nat} (hd : d ≤ windowUs) :
    s.delta (clockAfter s.tsw s.lastEdgeTime d) = d :=
  timeSince_add d s.lastEdgeTime (Nat.lt_of_le_of_lt hd hc)

/-! Pushes and the updates that an EDGE makes beside them. -/

theorem State.setPulse_of_clear {s : State} (hs : s.shortPending = false) (hl : s.longPending = false) :
    s.setPulse false false = s := by
  cases s; cases hs; cases hl; rfl

theorem State.pushAll_latchEdge_emit (s : State) (ts : Nat) (r : Option Response) (e : Option TraceEvent)
    (bs : List Bool) : ((s.latchEdge ts).emit r e).pushAll bs = ((s.pushAll bs).latchEdge ts).emit r e := by
  induction bs generalizing s with
  | nil => rfl
  | cons b bs ih => exact ih (s.push b)

/-! One bit. -/

/-- The falling edge that ends the HIGH interval of a bit sets the flag of that bit (R91, R125, R126). -/
theorem edgeStep_bitWidth {s : State} (hc : s.clockLegal) (hv : s.lastEdgeValid = true) (b : Bool) :
    ∃ e, edgeStep .low (clockAfter s.tsw s.lastEdgeTime (bitWidth b)) s =
      ((s.setPulse b !b).latchEdge (clockAfter s.tsw s.lastEdgeTime (bitWidth b))).emit none e := by
  have hd : s.delta (clockAfter s.tsw s.lastEdgeTime (bitWidth b)) = bitWidth b :=
    State.delta_clockAfter hc (by cases b <;> decide)
  obtain ⟨e, h⟩ := classifyEdge_low s (d := bitWidth b) (by cases b <;> decide)
  have hclass : decide (bitWidth b < 700) = b ∧ decide (1100 < bitWidth b) = !b := by cases b <;> decide
  rw [hclass.1, hclass.2] at h
  exact ⟨some e, by rw [edgeStep_later _ _ hv, hd, h]; rfl⟩

/-- The rising edge that ends the LOW gap of a bit pushes the bit whose flag is set (R91, R128). -/
theorem edgeStep_bitGap {s : State} (hc : s.clockLegal) (hv : s.lastEdgeValid = true) {b : Bool}
    (hs : s.shortPending = b) (hl : s.longPending = !b) :
    ∃ e, edgeStep .high (clockAfter s.tsw s.lastEdgeTime bitGap) s =
      (((s.push b).setPulse false false).latchEdge (clockAfter s.tsw s.lastEdgeTime bitGap)).emit none e := by
  have hd : s.delta (clockAfter s.tsw s.lastEdgeTime bitGap) = bitGap := State.delta_clockAfter hc (by decide)
  have hgap : 800 < bitGap ∧ bitGap < 1200 := by decide
  have h := edgeStep_push (clockAfter s.tsw s.lastEdgeTime bitGap) hv (hd.symm ▸ hgap) (by cases b <;> simp [hs, hl])
  exact ⟨_, by rw [h, hl, Bool.not_not]⟩

/-- The two edges of a bit push it and leave no flag set (R119). -/
theorem applyAll_sendBit {s : State} (hc : s.clockLegal) (hv : s.lastEdgeValid = true) (hs : s.shortPending = false)
    (hl : s.longPending = false) (b : Bool) :
    ∃ e, applyAll (sendBit s.tsw b s.lastEdgeTime) s =
      .next (((s.push b).latchEdge (clockAfter s.tsw s.lastEdgeTime (bitWidth b + bitGap))).emit none e) := by
  obtain ⟨_, hfall⟩ := edgeStep_bitWidth hc hv b
  rw [sendBit, pulse, applyAll_edge_cons, hfall, ← clockAfter_clockAfter, applyAll_edge_cons]
  obtain ⟨e, hrise⟩ := edgeStep_bitGap (s := ((s.setPulse b !b).latchEdge _).emit none _) hc rfl rfl rfl
  have hclear := State.setPulse_of_clear (s := s.push b) hs hl
  exact ⟨e, (congrArg Host.Outcome.next hrise).trans (by rw [← hclear]; rfl)⟩

/-! A list of bits. -/

/-- The edges of a list of bits push it, and write nothing else but the latched time and the outputs (R119). -/
theorem applyAll_sendBits {s : State} (hc : s.clockLegal) (hv : s.lastEdgeValid = true) (hs : s.shortPending = false)
    (hl : s.longPending = false) (bs : List Bool) :
    ∃ ts r e, applyAll (sendBits s.tsw bs s.lastEdgeTime) s = .next (((s.pushAll bs).latchEdge ts).emit r e) := by
  induction bs generalizing s with
  | nil =>
    have hlatch : (s.latchEdge s.lastEdgeTime).emit s.response s.trace = s := by
      rw [State.latchEdge_of_valid _ hv]; rfl
    exact ⟨s.lastEdgeTime, s.response, s.trace, congrArg Host.Outcome.next hlatch.symm⟩
  | cons b bs ih =>
    obtain ⟨e, hb⟩ := applyAll_sendBit hc hv hs hl b
    rw [sendBits, applyAll_append_of_next hb]
    obtain ⟨ts, r, e', hbs⟩ := ih
      (s := ((s.push b).latchEdge (clockAfter s.tsw s.lastEdgeTime (bitWidth b + bitGap))).emit none e) hc rfl hs hl
    rw [State.pushAll_latchEdge_emit] at hbs
    exact ⟨ts, r, e', hbs⟩

/-- What a run of pushes keeps: all but the storage of the queue and the write cursor (R141). -/
theorem State.pushAll_eq (s : State) (bs : List Bool) : ∃ m w, s.pushAll bs = { s with qMem := m, qWr := w } := by
  induction bs generalizing s with
  | nil => exact ⟨s.qMem, s.qWr, rfl⟩
  | cons b bs ih =>
    obtain ⟨m, w, h⟩ := ih (s.push b)
    exact ⟨m, w, h⟩

/-- Settles O19: the pushes keep that an edge has been seen, so of the latch only the time is new. -/
theorem sendBitsPushes : Obligations.SendBitsPushes := by
  rintro s bs t0 hc hv rfl hs hl
  obtain ⟨ts, r, e, h⟩ := applyAll_sendBits hc hv hs hl bs
  refine ⟨_, h, ?_⟩
  obtain ⟨m, w, hkeep⟩ := s.pushAll_eq bs
  rw [State.latchEdge_of_valid ts (by rw [hkeep]; exact hv)]
  rfl

end Sys2Proof.Machine
end

section
/-! What a DSTEP does to the queue (R143, R156, R170): it takes the oldest unread bit where there is one. -/

namespace Sys2Proof.Machine

/-! Reads of the queue through equal cursors and storage. -/

/-- The two states have the same bit queue. -/
structure State.SameQueue (s t : State) : Prop where
  qMem : t.qMem = s.qMem
  qWr : t.qWr = s.qWr
  qRd : t.qRd = s.qRd
  cap : t.cap = s.cap
  resets : t.resets = s.resets

namespace State.SameQueue

variable {s t : State} (h : s.SameQueue t)
include h

theorem advanceRead : s.advanceRead.SameQueue t.advanceRead :=
  { h with qRd := by simp [State.nextCursor, h.qRd, h.cap] }

theorem pend_eq : t.pend = s.pend := by simp [State.pend, h.qWr, h.qRd, h.cap]

theorem cursorsLegal (hs : s.cursorsLegal) : t.cursorsLegal := by
  rwa [State.cursorsLegal, h.qWr, h.qRd, h.cap]

theorem popBits_eq (n : Nat) : State.popBits n t = State.popBits n s := by
  induction n generalizing s t with
  | zero => rfl
  | succ n ih =>
    by_cases he : s.qRd = s.qWr
    · have he' : t.qRd = t.qWr := by rw [h.qRd, h.qWr, he]
      rw [State.popBits, State.popBits, State.pop_none he, State.pop_none he']
    · have he' : t.qRd ≠ t.qWr := by rwa [h.qRd, h.qWr]
      rw [State.popBits, State.popBits, State.pop_some he, State.pop_some he', h.qRd,
        State.qRead_congr h.qMem h.resets]
      exact congrArg _ (ih h.advanceRead)

theorem unread_eq : t.unread = s.unread := by rw [State.unread, State.unread, h.pend_eq, h.popBits_eq]

end State.SameQueue

/-! The unread bits as a list. -/

theorem State.unread_eq_nil_iff {s : State} (h : s.cursorsLegal) : s.unread = [] ↔ s.qRd = s.qWr := by
  refine ⟨fun hnil => not_not.mp fun hne => ?_, State.unread_of_empty⟩
  rw [State.unread_of_pending h hne] at hnil
  cases hnil

/-- Where the unread bits begin with `b`, that is the bit a pop reads (R143). -/
theorem State.unread_eq_cons {s : State} (h : s.cursorsLegal) {b : Bool} {bs : List Bool} (hu : s.unread = b :: bs) :
    s.qRd ≠ s.qWr ∧ s.qRead s.qRd = b ∧ s.advanceRead.unread = bs := by
  have hne : s.qRd ≠ s.qWr := fun he => by rw [State.unread_of_empty he] at hu; cases hu
  rw [State.unread_of_pending h hne] at hu
  obtain ⟨hb, hbs⟩ := List.cons.inj hu
  exact ⟨hne, hb, hbs⟩

theorem State.pend_eq_length_unread {s : State} (h : s.cursorsLegal) : s.pend = s.unread.length := by
  by_cases he : s.qRd = s.qWr
  · rw [State.unread_of_empty he, (State.pend_eq_zero_iff h).mpr he]
    rfl
  · have hpend := State.pend_advanceRead h he
    rw [State.unread_of_pending h he, List.length_cons,
      ← State.pend_eq_length_unread (State.cursorsLegal_advanceRead h), hpend]
termination_by s.pend

/-! DSTEP. -/

variable (now : Nat) {s : State}

@[simp] theorem completeFrame_qRd (s : State) : (completeFrame s).qRd = s.qRd := by
  obtain ⟨-, h⟩ | ⟨-, h⟩ := completeFrame_cases s <;> rw [h] <;> rfl

theorem decoderStep_qRd (h : s.qRd ≠ s.qWr) : (decoderStep now s).qRd = s.nextCursor s.qRd := by
  cases hm : s.mode with
  | search =>
    rw [decoderStep_search now hm, if_neg h]
    split_ifs <;> rfl
  | capture =>
    rw [decoderStep_capture now hm, if_neg h]
    split_ifs
    · exact completeFrame_qRd s.storeBit
    · rfl
    · rfl

/-- A DSTEP on a queue that is not empty pops one bit, in either mode. -/
theorem decoderStep_sameQueue (h : s.qRd ≠ s.qWr) : s.advanceRead.SameQueue (decoderStep now s) := by
  obtain ⟨⟨⟨-, -, -, -, hqMem, hqWr⟩, -, hcap, -, hresets, -⟩, -⟩ := decoderStep_keeps now s
  exact ⟨hqMem, hqWr, decoderStep_qRd now h, hcap, hresets⟩

theorem decoderStep_cursorsLegal (hc : s.cursorsLegal) (h : s.qRd ≠ s.qWr) : (decoderStep now s).cursorsLegal :=
  (decoderStep_sameQueue now h).cursorsLegal (State.cursorsLegal_advanceRead hc)

theorem decoderStep_pend (hc : s.cursorsLegal) (h : s.qRd ≠ s.qWr) : s.pend = (decoderStep now s).pend + 1 := by
  rw [(decoderStep_sameQueue now h).pend_eq, State.pend_advanceRead hc h]

end Sys2Proof.Machine
end

section
/-! EDGE and the polling context (R80, R271). EDGE reads and writes only its own elements and the two parameters, so it
acts alike on states that share them; a polling operation acts alike on states that differ only in them, a DSTEP where
it finds the same bit. So the two commute. -/

namespace Sys2Proof.Machine

/-- `s` with the elements EDGE owns, and the parameters it reads, as `t` has them (R36, R120). -/
def State.withEdgeView (s t : State) : State :=
  { s with
    lastEdgeValid := t.lastEdgeValid, lastEdgeTime := t.lastEdgeTime, shortPending := t.shortPending
    longPending := t.longPending, qMem := t.qMem, qWr := t.qWr, cap := t.cap, tsw := t.tsw }

theorem State.sameInterruptOwned_refl (s : State) : s.sameInterruptOwned s := ⟨rfl, rfl, rfl, rfl, rfl, rfl⟩

theorem State.withEdgeView_of_same {s t : State} (h : s.sameInterruptOwned t) (hcap : t.cap = s.cap)
    (htsw : t.tsw = s.tsw) : t.withEdgeView s = t := by
  obtain ⟨hvalid, htime, hshort, hlong, hqMem, hqWr⟩ := h
  simp only [State.withEdgeView, ← hvalid, ← htime, ← hshort, ← hlong, ← hqMem, ← hqWr, ← hcap, ← htsw]

/-! EDGE on states with the same view. -/

theorem classifyEdge_withEdgeView (level : Level) (d : Nat) (s t : State) :
    classifyEdge level d (s.withEdgeView t) =
      (s.withEdgeView (classifyEdge level d t)).emit none (classifyEdge level d t).trace := by
  have hlong : (s.withEdgeView t).longPending = t.longPending := rfl
  have hshort : (s.withEdgeView t).shortPending = t.shortPending := rfl
  unfold classifyEdge
  split_ifs
  · cases level with
    | low => unfold fallingEdge; split_ifs <;> rfl
    | high => unfold risingEdge; rw [hlong, hshort]; split_ifs <;> rfl
  · rfl

/-- What EDGE does depends on nothing but its view, and it writes nothing but the view and the outputs (R36). -/
theorem edgeStep_withEdgeView (level : Level) (ts : Nat) (s t : State) :
    edgeStep level ts (s.withEdgeView t) =
      (s.withEdgeView (edgeStep level ts t)).emit none (edgeStep level ts t).trace := by
  cases hv : t.lastEdgeValid with
  | false => rw [edgeStep_first level ts hv, edgeStep_first level ts (s := s.withEdgeView t) hv]; rfl
  | true =>
    have hd : (s.withEdgeView t).delta ts = t.delta ts := rfl
    rw [edgeStep_later level ts hv, edgeStep_later level ts (s := s.withEdgeView t) hv, hd, classifyEdge_withEdgeView]
    rfl

/-- An EDGE after an operation that leaves its view alone, in terms of the EDGE before it. -/
theorem edgeStep_quiet_of_same (level : Level) (ts : Nat) {s t : State} (h : s.sameInterruptOwned t)
    (hcap : t.cap = s.cap) (htsw : t.tsw = s.tsw) :
    (edgeStep level ts t).quiet = (t.withEdgeView (edgeStep level ts s)).quiet := by
  have hstep := edgeStep_withEdgeView level ts t s
  rw [State.withEdgeView_of_same h hcap htsw] at hstep
  rw [hstep, State.quiet_emit]

/-! DSTEP on states that differ in EDGE's view alone. -/

/-- A DSTEP reads no output (R252). -/
theorem decoderStep_emit (now : Nat) (s : State) (r : Option Response) (e : Option TraceEvent) :
    decoderStep now (s.emit r e) = decoderStep now s := by
  cases hm : s.mode with
  | search => rw [decoderStep_search now hm, decoderStep_search now (s := s.emit r e) hm]; rfl
  | capture => rw [decoderStep_capture now hm, decoderStep_capture now (s := s.emit r e) hm]; rfl

theorem decoderStep_congr_quiet (now : Nat) {s t : State} (h : s.quiet = t.quiet) :
    decoderStep now s = decoderStep now t := by
  rw [← decoderStep_emit now s none none, ← decoderStep_emit now t none none]
  exact congrArg _ h

theorem completeFrame_withEdgeView (s t : State) :
    completeFrame (s.withEdgeView t) = (completeFrame s).withEdgeView t := by
  have hframe : (s.withEdgeView t).frameImage = s.frameImage := rfl
  unfold completeFrame
  rw [hframe]
  split_ifs <;> rfl

/-- A DSTEP that finds the same bit pending does the same (R156, R170). -/
theorem decoderStep_withEdgeView (now : Nat) {s t : State} (hcap : t.cap = s.cap) (htsw : t.tsw = s.tsw)
    (hs : s.qRd ≠ s.qWr) (ht : s.qRd ≠ t.qWr) (hbit : (s.withEdgeView t).qRead s.qRd = s.qRead s.qRd) :
    decoderStep now (s.withEdgeView t) = (decoderStep now s).withEdgeView t := by
  have hadvance : (s.withEdgeView t).advanceRead = s.advanceRead.withEdgeView t := by
    simp [State.advanceRead, State.nextCursor, State.withEdgeView, hcap]
  have hstore : (s.withEdgeView t).storeBit = s.storeBit.withEdgeView t := by
    rw [State.storeBit, hadvance]
    exact congrArg _ hbit
  have helapsed : (s.withEdgeView t).elapsed now = s.elapsed now := by
    simp [State.elapsed, State.withEdgeView, htsw]
  cases hm : s.mode with
  | search =>
    by_cases hb : s.qRead s.qRd = preambleBit s.progress
    · by_cases hp : s.progress = 7
      · rw [decoderStep_search_match now hm hs hb hp,
          decoderStep_search_match now (s := s.withEdgeView t) hm ht (hbit.trans hb) hp, hadvance]; rfl
      · rw [decoderStep_search_advance now hm hs hb hp,
          decoderStep_search_advance now (s := s.withEdgeView t) hm ht (hbit.trans hb) hp, hadvance]; rfl
    · have hb' : (s.withEdgeView t).qRead s.qRd ≠ preambleBit s.progress := hbit ▸ hb
      rw [decoderStep_search_mismatch now hm hs hb,
        decoderStep_search_mismatch now (s := s.withEdgeView t) hm ht hb', hadvance]; rfl
  | capture =>
    by_cases hc : s.count.val < 35
    · by_cases hw : 1000000 ≤ s.elapsed now
      · rw [decoderStep_capture_timeout now hm hs hc hw,
          decoderStep_capture_timeout now (s := s.withEdgeView t) hm ht hc (helapsed ▸ hw), hstore]; rfl
      · have hw : s.elapsed now < 1000000 := by omega
        rw [decoderStep_capture_continue now hm hs hc hw,
          decoderStep_capture_continue now (s := s.withEdgeView t) hm ht hc (helapsed ▸ hw), hstore]; rfl
    · have hfull := count_eq_last.mpr hc
      rw [decoderStep_capture_complete now hm hs hfull,
        decoderStep_capture_complete now (s := s.withEdgeView t) hm ht hfull, hstore, completeFrame_withEdgeView]

/-! The statement. -/

/-- An EDGE with room for its bit leaves something pending where something was, and the oldest bit as it was (R145). -/
theorem edgeStep_keeps_oldest (level : Level) (ts : Nat) {s : State} (hc : s.cursorsLegal) (hne : s.qRd ≠ s.qWr)
    (hroom : s.roomForBit) :
    s.qRd ≠ (edgeStep level ts s).qWr ∧
      (s.withEdgeView (edgeStep level ts s)).qRead s.qRd = s.qRead s.qRd := by
  obtain ⟨a, b, e, -, h⟩ | ⟨b, e, -, -, h⟩ := edgeStep_shape level ts s
  · rw [h]
    exact ⟨hne, rfl⟩
  · rw [h]
    exact ⟨State.push_qRd_ne_qWr hc hroom b, (State.qRead_push s b s.qRd).trans (if_neg hne.symm)⟩

/-- An EDGE keeps the parameters of the machine (R33). -/
theorem edgeStep_parameters (level : Level) (ts : Nat) (s : State) :
    (edgeStep level ts s).cap = s.cap ∧ (edgeStep level ts s).tsw = s.tsw := by
  obtain ⟨a, b, e, -, h⟩ | ⟨b, e, -, -, h⟩ := edgeStep_shape level ts s
  · rw [h]; exact ⟨rfl, rfl⟩
  · rw [h]; exact ⟨rfl, rfl⟩

/-- A DSTEP and an EDGE commute while a bit is pending and no lap occurs (R80, R271). -/
theorem decoderStep_edgeStep_comm (level : Level) (ts now : Nat) {s : State} (hc : s.cursorsLegal)
    (hne : s.qRd ≠ s.qWr) (hroom : s.roomForBit) :
    (decoderStep now (edgeStep level ts s)).quiet = (edgeStep level ts (decoderStep now s)).quiet := by
  obtain ⟨hne', hbit⟩ := edgeStep_keeps_oldest level ts hc hne hroom
  obtain ⟨hcap, htsw⟩ := edgeStep_parameters level ts s
  obtain ⟨⟨howned, -, hcap', htsw', -⟩, -⟩ := decoderStep_keeps now s
  rw [edgeStep_quiet_of_same level ts howned hcap' htsw',
    ← decoderStep_withEdgeView now hcap htsw hne hne' hbit]
  exact congrArg State.quiet
    (decoderStep_congr_quiet now (edgeStep_quiet_of_same level ts s.sameInterruptOwned_refl rfl rfl))

/-- Settles O58: the host operations write nothing that EDGE reads or writes. -/
theorem edgeCommutesWithPolling : Obligations.EdgeCommutesWithPolling := by
  intro s level ts i hi hdstep
  have hself := edgeStep_quiet_of_same level ts s.sameInterruptOwned_refl rfl rfl
  have hafter (u : State) (h : s.sameInterruptOwned u) (hcap : u.cap = s.cap) (htsw : u.tsw = s.tsw) :=
    (edgeStep_quiet_of_same level ts h hcap htsw).symm
  cases i with
  | nop => cases hi
  | edge _ _ => cases hi
  | dstep now =>
    obtain ⟨hc, hp, hroom⟩ := hdstep ⟨now, rfl⟩
    exact ⟨_, _, rfl, rfl, decoderStep_edgeStep_comm level ts now hc (s.hasPending_iff.mp hp) hroom⟩
  | status => exact ⟨_, _, rfl, rfl, hself.trans (hafter _ s.sameInterruptOwned_refl rfl rfl)⟩
  | take =>
    exact ⟨_, _, rfl, rfl, (congrArg State.clearPending hself).trans
      (hafter (s.clearPending.emit _ _) s.sameInterruptOwned_refl rfl rfl)⟩
  | config u =>
    exact ⟨_, _, rfl, rfl, (congrArg (State.setUseCelsius · u) hself).trans
      (hafter ((s.setUseCelsius u).emit _ _) s.sameInterruptOwned_refl rfl rfl)⟩
  | reset => cases hi

end Sys2Proof.Machine
end

section
/-! POLL and POLLB (R117, R118, R231). Both are a run of turns in which a test of the state keeps the poll going, the
turn of the last test, and STATUS after any EDGEs; they differ in the test, the clock reading of a DSTEP and what the
last turn applies. The DSTEPs of a POLL are bounded by the bits there are for them to pop. -/

namespace Sys2Proof.Machine

/-! What an EDGE and a DSTEP do to the pending count. -/

/-- The trace event of a push. -/
def pushEvent (e : TraceEvent) : Bool := e == .eBit0 || e == .eBit1

/-- An EDGE pushes at most the bit that its event reports, and the cursors stay inside the queue (R130, R145). -/
theorem edgeStep_pend (level : Level) (ts : Nat) {s : State} (hc : s.cursorsLegal) :
    (edgeStep level ts s).cursorsLegal ∧
      (edgeStep level ts s).pend ≤ s.pend + (edgeStep level ts s).trace.toList.countP pushEvent := by
  obtain ⟨a, b, e, -, h⟩ | ⟨b, e, -, he, h⟩ := edgeStep_shape level ts s
  · rw [h]
    exact ⟨hc, Nat.le_add_right _ _⟩
  · rw [h]
    refine ⟨State.cursorsLegal_push hc b, ?_⟩
    have hcount : [e].countP pushEvent = 1 := by obtain rfl | rfl := he <;> rfl
    have hpend : (s.push b).pend ≤ s.pend + 1 := (State.pend_push hc b).trans_le (Nat.mod_le _ _)
    exact hpend.trans_eq (congrArg _ hcount.symm)

theorem edgeStep_pend_le (level : Level) (ts : Nat) {s : State} (hc : s.cursorsLegal) :
    (edgeStep level ts s).pend ≤ s.pend + 1 := by
  refine (edgeStep_pend level ts hc).2.trans (Nat.add_le_add_left ?_ _)
  exact List.countP_le_length.trans Option.length_toList_le

/-! Sequences of operations. -/

theorem applyAll_exists_next (is : List Instr) (s : State) : ∃ t, applyAll is s = .next t := by
  induction is generalizing s with
  | nil => exact ⟨s, rfl⟩
  | cons i is ih =>
    obtain ⟨t, ht⟩ := exec_exists_next i s
    obtain ⟨u, hu⟩ := ih t
    exact ⟨u, by rw [applyAll, ht]; exact hu⟩

theorem applyAll_dstep_cons (now : Nat) (is : List Instr) (s : State) :
    applyAll (.dstep now :: is) s = applyAll is (decoderStep now s) := rfl

/-- STATUS at the end of a sequence responds with the pending flag of the state it leaves (R222). -/
theorem applyAll_status (is : List Instr) (s : State) :
    ∃ t, applyAll (is ++ [Instr.status]) s = .next t ∧ t.response = some (.status t.readingPending) := by
  obtain ⟨u, hu⟩ := applyAll_exists_next is s
  exact ⟨_, applyAll_append_of_next hu, rfl⟩

theorem bitsPushed_cons {i : Instr} {s t : State} (h : exec i s = .next t) (is : List Instr) :
    bitsPushed (i :: is) s = t.trace.toList.countP pushEvent + bitsPushed is t := by
  simp only [bitsPushed, tracesOf, h, List.countP_append]
  rfl

/-! The run of turns. -/

/-- At every turn of the polling context in this run of turns, the state then and the clock reading meet `test`; a DSTEP
is applied at the `time` of the reading. -/
def testedRun (time : Nat → Nat) (test : Nat → State → Prop) (run : List Turn) (s : State) : Prop :=
  ∀ earlier clock later, run = earlier ++ Turn.host clock :: later →
    ∃ v, applyAll (earlier.map (Turn.op time)) s = .next v ∧ test clock v

section
variable {time : Nat → Nat} {test : Nat → State → Prop} {run : List Turn} {s : State}

theorem testedRun_nil : testedRun time test [] s := fun earlier _ _ h => by cases earlier <;> cases h

theorem testedRun_edge_cons {level : Level} {ts : Nat} (h : testedRun time test run (edgeStep level ts s)) :
    testedRun time test (.edge level ts :: run) s := by
  intro earlier clock later he
  cases earlier with
  | nil => cases he
  | cons turn earlier => cases he; exact h earlier clock later rfl

theorem testedRun_host_cons {clock : Nat} (ht : test clock s)
    (h : testedRun time test run (decoderStep (time clock) s)) : testedRun time test (.host clock :: run) s := by
  intro earlier clock later he
  cases earlier with
  | nil => cases he; exact ⟨s, rfl, ht⟩
  | cons turn earlier => cases he; exact h earlier clock later rfl

end

/-- How a poll runs: at what time it applies a DSTEP when the clock reads so much, the test that keeps it going, and
what the turn of the last test applies. -/
structure PollKind where
  time : Nat → Nat
  test : Nat → State → Prop
  stop : Nat → List Instr

/-- What the turns of a poll that ends are made of (R117, R118), and the state at its last test. -/
structure PollParts where
  run : List Turn
  last : Nat
  pause : List Turn
  final : Nat
  rest : List Turn
  atLast : State

/-- The parts `p` of the turns and the operations of a poll from `s`: the run, what the turn of the last test applies,
the EDGEs after it, and STATUS. -/
structure PollRun (k : PollKind) (turns : List Turn) (s : State) (ops : List Instr) (p : PollParts) : Prop where
  turns_eq : turns = p.run ++ Turn.host p.last :: p.pause ++ Turn.host p.final :: p.rest
  edges : ∀ x ∈ p.pause, x.isEdge = true
  ops_eq : ops = p.run.map (Turn.op k.time) ++ k.stop p.last ++ p.pause.map (Turn.op k.time) ++ [Instr.status]
  tested : testedRun k.time k.test p.run s
  reached : applyAll (p.run.map (Turn.op k.time)) s = .next p.atLast
  stopped : ¬k.test p.last p.atLast

namespace PollRun

variable {k : PollKind} {turns : List Turn} {s : State} {ops : List Instr} {p : PollParts}

theorem edge_cons {level : Level} {ts : Nat} (h : PollRun k turns (edgeStep level ts s) ops p) :
    PollRun k (.edge level ts :: turns) s (.edge level ts :: ops) { p with run := .edge level ts :: p.run } where
  turns_eq := congrArg _ h.turns_eq
  edges := h.edges
  ops_eq := congrArg _ h.ops_eq
  tested := testedRun_edge_cons h.tested
  reached := h.reached
  stopped := h.stopped

theorem host_cons {clock : Nat} (ht : k.test clock s) (h : PollRun k turns (decoderStep (k.time clock) s) ops p) :
    PollRun k (.host clock :: turns) s (.dstep (k.time clock) :: ops) { p with run := .host clock :: p.run } where
  turns_eq := congrArg _ h.turns_eq
  edges := h.edges
  ops_eq := congrArg _ h.ops_eq
  tested := testedRun_host_cons ht h.tested
  reached := h.reached
  stopped := h.stopped

/-- The poll ends at its first turn of the polling context. -/
theorem of_statusOps {clock : Nat} (ht : ¬k.test clock s) (h : statusOps turns = some ops) :
    ∃ p, PollRun k (.host clock :: turns) s (k.stop clock ++ ops) p := by
  obtain ⟨pause, final, rest, rfl, hedges, rfl⟩ := statusOps_shape k.time h
  exact ⟨⟨[], clock, pause, final, rest, s⟩, rfl, hedges, by simp, testedRun_nil, rfl, ht⟩

end PollRun

/-! POLL. -/

/-- POLL goes on while something is pending, each DSTEP at its one time (R117). -/
def pollAt (now : Nat) : PollKind where
  time _ := now
  test _ v := v.hasPending = true
  stop _ := []

theorem pollOps_run {now : Nat} {turns : List Turn} {s : State} {ops : List Instr}
    (h : pollOps now turns s = some ops) : ∃ p, PollRun (pollAt now) turns s ops p := by
  induction turns generalizing s ops with
  | nil => cases h
  | cons turn turns ih =>
    cases turn with
    | edge level ts =>
      obtain ⟨ops, hops, rfl⟩ := Option.map_eq_some_iff.mp h
      obtain ⟨p, hrun⟩ := ih hops
      exact ⟨_, hrun.edge_cons⟩
    | host clock =>
      rw [pollOps] at h
      split_ifs at h with hp
      · obtain ⟨ops, hops, rfl⟩ := Option.map_eq_some_iff.mp h
        obtain ⟨p, hrun⟩ := ih hops
        exact ⟨_, hrun.host_cons (clock := clock) hp⟩
      · exact PollRun.of_statusOps (k := pollAt now) hp h

/-- EDGEs and STATUS are no DSTEPs. -/
theorem countP_isDstep_statusOps {turns : List Turn} {ops : List Instr} (h : statusOps turns = some ops) :
    ops.countP isDstep = 0 := by
  induction turns generalizing ops with
  | nil => cases h
  | cons turn turns ih =>
    cases turn with
    | edge level ts =>
      obtain ⟨ops, hops, rfl⟩ := Option.map_eq_some_iff.mp h
      exact (List.countP_cons_of_neg Bool.false_ne_true).trans (ih hops)
    | host clock => cases h; rfl

/-- A POLL applies no more DSTEPs than there are unread bits and bits that arrive (R231). -/
theorem countP_isDstep_pollOps {now : Nat} {turns : List Turn} {s : State} {ops : List Instr} (hc : s.cursorsLegal)
    (h : pollOps now turns s = some ops) : ops.countP isDstep ≤ s.pend + bitsPushed ops s := by
  induction turns generalizing s ops with
  | nil => cases h
  | cons turn turns ih =>
    cases turn with
    | edge level ts =>
      obtain ⟨ops, hops, rfl⟩ := Option.map_eq_some_iff.mp h
      obtain ⟨hlegal, hpend⟩ := edgeStep_pend level ts hc
      have hrest := ih hlegal hops
      rw [bitsPushed_cons (exec_edge_next level ts s), List.countP_cons_of_neg Bool.false_ne_true]
      omega
    | host clock =>
      rw [pollOps] at h
      split_ifs at h with hp
      · obtain ⟨ops, hops, rfl⟩ := Option.map_eq_some_iff.mp h
        have hne := s.hasPending_iff.mp hp
        have hpend := decoderStep_pend now hc hne
        have hrest := ih (decoderStep_cursorsLegal now hc hne) hops
        rw [bitsPushed_cons (exec_dstep now s), List.countP_cons_of_pos rfl]
        omega
      · rw [countP_isDstep_statusOps h]
        exact Nat.zero_le _

theorem statusOps_isSome {turns : List Turn} (h : 0 < turns.countP fun x => !x.isEdge) :
    (statusOps turns).isSome = true := by
  induction turns with
  | nil => cases h
  | cons turn turns ih =>
    cases turn with
    | edge level ts => rw [statusOps, Option.isSome_map]; exact ih h
    | host clock => rfl

/-- A POLL ends when the polling context has a turn for each bit there can be, one for the last test and one for STATUS
(R231). -/
theorem pollOps_isSome (now : Nat) {turns : List Turn} {s : State} (hc : s.cursorsLegal)
    (h : s.pend + turns.countP Turn.isEdge + 2 ≤ turns.countP fun x => !x.isEdge) :
    (pollOps now turns s).isSome = true := by
  induction turns generalizing s with
  | nil => cases h
  | cons turn turns ih =>
    obtain ⟨hedges, hhosts⟩ := countP_isEdge_cons turn turns
    cases turn with
    | edge level ts =>
      have hturn : (Turn.edge level ts).isEdge = true := rfl
      rw [hedges, hhosts, if_pos hturn, if_pos hturn] at h
      have hpend := edgeStep_pend_le level ts hc
      rw [pollOps, Option.isSome_map]
      exact ih (edgeStep_pend level ts hc).1 (by omega)
    | host clock =>
      have hturn : ¬(Turn.host clock).isEdge = true := Bool.false_ne_true
      rw [hedges, hhosts, if_neg hturn, if_neg hturn] at h
      rw [pollOps]
      split_ifs with hp
      · have hne := s.hasPending_iff.mp hp
        have hpend := decoderStep_pend now hc hne
        rw [Option.isSome_map]
        exact ih (decoderStep_cursorsLegal now hc hne) (by omega)
      · exact statusOps_isSome (by omega)

/-- A POLL with no EDGE inside it is one DSTEP for each unread bit, and STATUS (R231). -/
theorem pollOps_replicate (now clock : Nat) {n : Nat} {s : State} (hc : s.cursorsLegal) (h : s.pend + 2 ≤ n) :
    pollOps now (List.replicate n (.host clock)) s =
      some (List.replicate s.pend (Instr.dstep now) ++ [Instr.status]) := by
  induction n generalizing s with
  | zero => cases h
  | succ n ih =>
    rw [List.replicate_succ, pollOps]
    split_ifs with hp
    · have hne := s.hasPending_iff.mp hp
      have hpend := decoderStep_pend now hc hne
      rw [ih (decoderStep_cursorsLegal now hc hne) (by omega), hpend]
      rfl
    · have hzero : s.pend = 0 :=
        (State.pend_eq_zero_iff hc).mpr (s.hasPending_false_iff.mp (Bool.eq_false_iff.mpr hp))
      obtain ⟨n, rfl⟩ : ∃ m, n = m + 1 := Nat.exists_eq_succ_of_ne_zero (by omega)
      rw [hzero]
      rfl

/-! POLLB. -/

/-- POLLB goes on until a DSTEP leaves SEARCH with an empty queue, each DSTEP at the reading of its turn (R118). -/
def pollBlocking : PollKind where
  time := id
  test clock v := ¬((decoderStep clock v).mode = .search ∧ (decoderStep clock v).hasPending = false)
  stop clock := [.dstep clock]

theorem pollBlockingOps_run {turns : List Turn} {s : State} {ops : List Instr}
    (h : pollBlockingOps turns s = some ops) : ∃ p, PollRun pollBlocking turns s ops p := by
  induction turns generalizing s ops with
  | nil => cases h
  | cons turn turns ih =>
    cases turn with
    | edge level ts =>
      obtain ⟨ops, hops, rfl⟩ := Option.map_eq_some_iff.mp h
      obtain ⟨p, hrun⟩ := ih hops
      exact ⟨_, hrun.edge_cons⟩
    | host clock =>
      rw [pollBlockingOps] at h
      split_ifs at h with hd
      · obtain ⟨ops, hops, rfl⟩ := Option.map_eq_some_iff.mp h
        exact PollRun.of_statusOps (k := pollBlocking) (not_not.mpr hd) hops
      · obtain ⟨ops, hops, rfl⟩ := Option.map_eq_some_iff.mp h
        obtain ⟨p, hrun⟩ := ih hops
        exact ⟨_, hrun.host_cons (clock := clock) hd⟩

/-! The statement. -/

/-- Settles O59, by the parts of either poll and the count of the DSTEPs of a POLL. -/
theorem pollDrains : Obligations.PollDrains := by
  intro s now turns hc
  refine ⟨fun ops h => ?_, pollOps_isSome now hc, fun n clock => pollOps_replicate now clock hc, fun ops h => ?_⟩
  · obtain ⟨⟨run, last, pause, final, rest, u⟩, hrun⟩ := pollOps_run h
    obtain ⟨t, ht, hresponse⟩ :=
      applyAll_status (run.map (Turn.op fun _ => now) ++ pause.map (Turn.op fun _ => now)) s
    have hops : ops = run.map (Turn.op fun _ => now) ++ pause.map (Turn.op fun _ => now) ++ [Instr.status] := by
      simpa [pollAt] using hrun.ops_eq
    exact ⟨run, last, pause, final, rest, u, t, hrun.turns_eq, hrun.edges, hops, hrun.tested, hrun.reached,
      Bool.eq_false_iff.mpr hrun.stopped, hops ▸ ht, hresponse, countP_isDstep_pollOps hc h⟩
  · obtain ⟨⟨run, last, pause, final, rest, u⟩, hrun⟩ := pollBlockingOps_run h
    obtain ⟨t, ht, hresponse⟩ :=
      applyAll_status (run.map (Turn.op id) ++ Instr.dstep last :: pause.map (Turn.op id)) s
    have hops : ops = run.map (Turn.op id) ++ Instr.dstep last :: pause.map (Turn.op id) ++ [Instr.status] := by
      simpa [pollBlocking] using hrun.ops_eq
    obtain ⟨hmode, hempty⟩ := not_not.mp hrun.stopped
    refine ⟨run, last, pause, final, rest, decoderStep last u, t, hrun.turns_eq, hrun.edges, hops,
      fun earlier clock later he => ?_, applyAll_append_of_next hrun.reached, hmode, hempty, hops ▸ ht, hresponse⟩
    obtain ⟨v, hv, htest⟩ := hrun.tested earlier clock later he
    exact ⟨_, applyAll_append_of_next hv, htest⟩

end Sys2Proof.Machine
end

section
/-! A transmission received (R100, R162, R163, R208): the DSTEPs that find the preamble, those that capture the frame's
36 bits, and the whole signal sent by EDGEs and drained by one POLL. -/

namespace Sys2Proof.Machine

/-! The preamble. -/

/-- The search has matched `p` bits, and the rest of the preamble is unread before the bits that follow (R162). -/
structure State.SearchingAt (s : State) (p : Nat) (following : List Bool) : Prop where
  cursors : s.cursorsLegal
  mode : s.mode = .search
  progress : s.progress.val = p
  unread : s.unread = preamble.drop p ++ following

theorem preamble_drop (p : Fin 8) : preamble.drop p = preambleBit p :: preamble.drop (p + 1) := by
  revert p; decide

namespace State.SearchingAt

variable {s : State} {p : Nat} {following : List Bool} (h : s.SearchingAt p following)
include h

/-- The bit that the search waits for is the oldest unread one. -/
theorem pending : s.qRd ≠ s.qWr ∧ s.qRead s.qRd = preambleBit s.progress ∧
    s.advanceRead.unread = preamble.drop (p + 1) ++ following := by
  have hu := h.unread
  rw [← h.progress, preamble_drop, List.cons_append] at hu
  exact h.progress ▸ State.unread_eq_cons h.cursors hu

/-- A DSTEP before the eighth bit advances (R157). -/
theorem advance (hp : p < 7) (now : Nat) : (decoderStep now s).SearchingAt (p + 1) following := by
  obtain ⟨hne, hb, hunread⟩ := h.pending
  have hq := decoderStep_sameQueue now hne
  have hlt : s.progress.val < 7 := h.progress.trans_lt hp
  have hstep := decoderStep_search_advance now h.mode hne hb (Fin.ne_of_lt hlt)
  refine ⟨decoderStep_cursorsLegal now h.cursors hne, ?_, ?_, hq.unread_eq.trans hunread⟩
  · rw [hstep]; exact h.mode
  · rw [hstep]; exact (Fin.val_add_one_of_lt hlt).trans (congrArg (· + 1) h.progress)

/-- The DSTEP of the eighth bit opens the capture, with what follows the preamble unread (R158, R163). -/
theorem opens (hp : p = 7) (now : Nat) :
    decoderStep now s = (s.advanceRead.openCapture now).emit none (some .dMatch) ∧
      (decoderStep now s).cursorsLegal ∧ (decoderStep now s).unread = following := by
  obtain ⟨hne, hb, hunread⟩ := h.pending
  rw [hp] at hunread
  have hlast : s.progress = 7 := Fin.ext (h.progress.trans hp)
  exact ⟨decoderStep_search_match now h.mode hne hb hlast, decoderStep_cursorsLegal now h.cursors hne,
    (decoderStep_sameQueue now hne).unread_eq.trans hunread⟩

end State.SearchingAt

/-- DSTEPs before the eighth bit go on with the search, at any clock readings (R162). -/
theorem applyAll_dsteps_searchingAt {s : State} {p : Nat} {following : List Bool} (h : s.SearchingAt p following)
    (nows : List Nat) (hlen : p + nows.length ≤ 7) :
    ∃ u, applyAll (nows.map Instr.dstep) s = .next u ∧ u.SearchingAt (p + nows.length) following := by
  induction nows generalizing s p with
  | nil => exact ⟨s, rfl, h⟩
  | cons now nows ih =>
    rw [List.length_cons] at hlen ⊢
    rw [List.map_cons, applyAll_dstep_cons, show p + (nows.length + 1) = p + 1 + nows.length by omega]
    exact ih (h.advance (by omega) now) (by omega)

/-- Settles O30: seven DSTEPs advance the search, and the eighth opens the capture. -/
theorem preambleMatches : Obligations.PreambleMatches := by
  intro s nows last following hc hm hp hlen hu
  have hstart : s.SearchingAt 0 following := ⟨hc, hm, by rw [hp]; rfl, hu⟩
  constructor
  · intro k hk
    obtain ⟨u, hrun, hat⟩ := applyAll_dsteps_searchingAt hstart (nows.take k) (by simp; omega)
    exact ⟨u, hrun, hat.mode⟩
  · obtain ⟨u, hrun, hat⟩ := applyAll_dsteps_searchingAt hstart nows (by omega)
    obtain ⟨hstep, -, hunread⟩ := hat.opens (by omega) last
    rw [List.map_append, applyAll_append_of_next hrun]
    exact ⟨decoderStep last u, rfl, by simp [hstep], by simp [hstep], by simp [hstep], by simp [hstep], hunread⟩

/-! The frame. -/

/-- The capture has stored the first `n` bits of `F`, the rest of which is unread, in a window that is open at `now`. -/
structure State.CapturingAt (s : State) (F : Frame) (n now : Nat) : Prop where
  cursors : s.cursorsLegal
  mode : s.mode = .capture
  progress : s.progress = 0
  count : s.count.val = n
  window : s.elapsed now < 1000000
  stored : ∀ i, i < n → s.fRead i = F.getMsbD i
  unread : s.unread = (frameBits F).drop n

/-- A valid frame has been received and its reading published in the unit of `celsius`, with nothing left to read
(R208). -/
structure State.Received (s : State) (F : Frame) (celsius : Bool) : Prop where
  pending : s.readingPending = true
  id : s.slotId = BitVec.ofNat 7 (sensorId F)
  temp : s.slotTemp = BitVec.ofInt 19 (publishedTemp celsius F)
  unit : s.slotUnit = Scale.ofBit celsius
  image : s.frameImage = F
  mode : s.mode = .search
  progress : s.progress = 0
  empty : s.qRd = s.qWr

theorem frameBits_drop (F : Frame) {n : Nat} (hn : n < 36) :
    (frameBits F).drop n = F.getMsbD n :: (frameBits F).drop (n + 1) := by
  have hlen : n < (frameBits F).length := by simpa [frameBits] using hn
  rw [List.drop_eq_getElem_cons hlen]
  simp [frameBits]

/-- No time passes between equal clock readings (R178). -/
theorem timeSince_self (w t : Nat) : timeSince w t t = 0 := by simp [timeSince]

namespace State.CapturingAt

variable {s : State} {F : Frame} {n now : Nat} (h : s.CapturingAt F n now)
include h

/-- The next bit of the frame is the oldest unread one. -/
theorem pending (hn : n < 36) :
    s.qRd ≠ s.qWr ∧ s.qRead s.qRd = F.getMsbD n ∧ s.advanceRead.unread = (frameBits F).drop (n + 1) := by
  have hu := h.unread
  rw [frameBits_drop F hn] at hu
  exact State.unread_eq_cons h.cursors hu

/-- The bit that a DSTEP pops is stored as the next of the frame (R173). -/
theorem fRead_step (hn : n < 36) {i : Nat} (hi : i < n + 1) : (decoderStep now s).fRead i = F.getMsbD i := by
  obtain ⟨hne, hb, -⟩ := h.pending hn
  rw [decoderStep_fRead_of_bit now h.mode hne, h.count]
  split_ifs with heq
  · rw [hb, heq]
  · exact h.stored i (by omega)

/-- A DSTEP before the 36th bit stores one more (R174). -/
theorem store (hn : n < 35) : (decoderStep now s).CapturingAt F (n + 1) now := by
  obtain ⟨hne, -, hunread⟩ := h.pending (by omega)
  have hcount : s.count.val < 35 := h.count.trans_lt hn
  have hstep := decoderStep_capture_continue now h.mode hne hcount h.window
  have hq := decoderStep_sameQueue now hne
  refine ⟨decoderStep_cursorsLegal now h.cursors hne, ?_, ?_, ?_, ?_, fun i hi => h.fRead_step (by omega) hi,
    hq.unread_eq.trans hunread⟩
  · simpa [hstep, State.storeBit] using h.mode
  · simpa [hstep, State.storeBit] using h.progress
  · rw [hstep, State.emit_count, State.setCount_count, count_succ hcount, h.count]
  · simpa [hstep, State.storeBit, State.elapsed] using h.window

/-- The DSTEP of the 36th bit of a valid frame publishes it (R175, R208). -/
theorem complete (hn : n = 35) (hok : checksumOk F = true) : (decoderStep now s).Received F s.useCelsius := by
  subst hn
  obtain ⟨hne, -, hunread⟩ := h.pending (by decide)
  have hq := decoderStep_sameQueue now hne
  have hcomplete := decoderStep_capture_complete now h.mode hne (Fin.ext h.count)
  have himage : (decoderStep now s).frameImage = F :=
    frame_ext fun i hi => (State.frameImage_getMsbD _ hi).trans (h.fRead_step (by decide) hi)
  have hstored : s.storeBit.frameImage = F := by
    rw [← himage, hcomplete, completeFrame_frameImage]
  have hempty : (decoderStep now s).qRd = (decoderStep now s).qWr :=
    (State.unread_eq_nil_iff (decoderStep_cursorsLegal now h.cursors hne)).mp (hq.unread_eq.trans hunread)
  have hstep : decoderStep now s = (s.storeBit.closeCapture.publish F).emit none (some .dFrameOk) := by
    rw [hcomplete, completeFrame, hstored, if_pos hok]
  refine ⟨?_, ?_, ?_, ?_, himage, ?_, ?_, hempty⟩ <;> rw [hstep]
  all_goals simp [State.storeBit, h.progress]

end State.CapturingAt

/-- DSTEPs before the 36th bit go on with the capture. -/
theorem applyAll_dsteps_capturingAt {s : State} {F : Frame} {n now : Nat} (h : s.CapturingAt F n now) (k : Nat)
    (hk : n + k ≤ 35) :
    ∃ u, applyAll ((List.replicate k now).map Instr.dstep) s = .next u ∧ u.CapturingAt F (n + k) now := by
  induction k generalizing s n with
  | zero => exact ⟨s, rfl, h⟩
  | succ k ih =>
    rw [List.replicate_succ, List.map_cons, applyAll_dstep_cons, show n + (k + 1) = n + 1 + k by omega]
    exact ih (h.store (by omega)) (by omega)

/-- DSTEPs keep the unit selection (R33). -/
theorem applyAll_dsteps_useCelsius {nows : List Nat} {s u : State} (h : applyAll (nows.map Instr.dstep) s = .next u) :
    u.useCelsius = s.useCelsius := by
  induction nows generalizing s with
  | nil => cases h; rfl
  | cons now nows ih =>
    obtain ⟨⟨-, hunit, -⟩, -⟩ := decoderStep_keeps now s
    exact (ih h).trans hunit

/-- 44 DSTEPs at one clock reading receive a preamble and a valid frame (R100). -/
theorem applyAll_dsteps_receive {s : State} {F : Frame} (h : s.SearchingAt 0 (frameBits F)) (now : Nat)
    (hok : checksumOk F = true) :
    ∃ u, applyAll ((List.replicate 44 now).map Instr.dstep) s = .next u ∧ u.Received F s.useCelsius := by
  obtain ⟨v, hsearch, hv⟩ := applyAll_dsteps_searchingAt h (List.replicate 7 now) (by simp)
  obtain ⟨hstep, hcursors, hunread⟩ := hv.opens (by simp) now
  have hopen : (decoderStep now v).CapturingAt F 0 now := by
    refine ⟨hcursors, ?_, ?_, ?_, ?_, nofun, hunread⟩ <;> rw [hstep]
    all_goals simp [State.elapsed, timeSince_self]
  obtain ⟨w, hcapture, hw⟩ := applyAll_dsteps_capturingAt hopen 35 (by decide)
  have hrun : applyAll ((List.replicate 44 now).map Instr.dstep) s = .next (decoderStep now w) := by
    have hsplit : (List.replicate 44 now).map Instr.dstep = (List.replicate 7 now).map Instr.dstep ++
        Instr.dstep now :: ((List.replicate 35 now).map Instr.dstep ++ [Instr.dstep now]) := rfl
    rw [hsplit, applyAll_append_of_next hsearch, applyAll_dstep_cons, applyAll_append_of_next hcapture]
    rfl
  have hunit : w.useCelsius = s.useCelsius := by
    have hsearched : v.useCelsius = s.useCelsius := applyAll_dsteps_useCelsius hsearch
    simpa [applyAll_dsteps_useCelsius hcapture, hstep] using hsearched
  exact ⟨_, hrun, hunit ▸ hw.complete rfl hok⟩

/-! The whole transmission. -/

theorem State.sameQueue_latchEdge_emit (s : State) (ts : Nat) (r : Option Response) (e : Option TraceEvent) :
    s.SameQueue ((s.latchEdge ts).emit r e) := ⟨rfl, rfl, rfl, rfl, rfl⟩

/-- The edges of a transmission leave its bits unread, in a queue that is large enough, and the search where it was. -/
theorem applyAll_transmission {s : State} (F : Frame) (hc : s.cursorsLegal) (hclock : s.clockLegal) (hcap : 45 ≤ s.cap)
    (hv : s.lastEdgeValid = true) (hs : s.shortPending = false) (hl : s.longPending = false) (he : s.qRd = s.qWr)
    (hm : s.mode = .search) (hp : s.progress = 0) :
    ∃ t, applyAll (transmission s.tsw F s.lastEdgeTime) s = .next t ∧ t.SearchingAt 0 (frameBits F) ∧
      t.useCelsius = s.useCelsius := by
  obtain ⟨ts, r, e, h⟩ := applyAll_sendBits hclock hv hs hl (preamble ++ frameBits F)
  have hlen : (preamble ++ frameBits F).length = 44 := by simp [preamble, frameBits]
  have hfits : 44 % s.cap = 44 := Nat.mod_eq_of_lt hcap
  have hq := (s.pushAll (preamble ++ frameBits F)).sameQueue_latchEdge_emit ts r e
  have hunread := State.unread_pushAll hc he (preamble ++ frameBits F)
  rw [hlen, hfits, Nat.sub_self, List.drop_zero] at hunread
  obtain ⟨m, w, hkeep⟩ := s.pushAll_eq (preamble ++ frameBits F)
  refine ⟨_, h, ⟨hq.cursorsLegal (State.cursorsLegal_pushAll hc _), ?_, ?_, hq.unread_eq.trans hunread⟩, ?_⟩ <;>
    rw [hkeep]
  · exact hm
  · exact congrArg Fin.val hp
  · rfl

/-- A POLL with no EDGE inside it receives a transmission that waits in the queue, and STATUS says so (R117, R222). -/
theorem execPoll_receive {t : State} {F : Frame} (h : t.SearchingAt 0 (frameBits F)) (now : Nat) {n : Nat}
    (hn : 46 ≤ n) (hok : checksumOk F = true) :
    ∃ u, execPoll now (List.replicate n (.host now)) t = some (.next u) ∧ u.response = some (.status true) ∧
      u.Received F t.useCelsius := by
  have hpend : t.pend = 44 := by
    rw [State.pend_eq_length_unread h.cursors, h.unread]
    simp [preamble, frameBits]
  obtain ⟨v, hrun, hv⟩ := applyAll_dsteps_receive h now hok
  rw [List.map_replicate] at hrun
  refine ⟨v.emit (some (.status v.readingPending)) none, ?_, congrArg (fun b => some (Response.status b)) hv.pending,
    { hv with }⟩
  rw [execPoll, pollOps_replicate now now h.cursors (by omega), hpend, Option.map_some, applyAll_append_of_next hrun]
  rfl

/-- Settles O37: the EDGEs leave the bits unread, and the POLL receives them. -/
theorem transmissionPublishes : Obligations.TransmissionPublishes := by
  rintro s F t0 now n hc hclock hcap hv rfl hs hl he hm hp hok hn
  obtain ⟨t, hsent, hat, hunit⟩ := applyAll_transmission F hc hclock hcap hv hs hl he hm hp
  obtain ⟨u, hpoll, hresponse, hu⟩ := execPoll_receive hat now hn hok
  have hid : sensorId F < 2 ^ 7 := Nat.lt_succ_of_le (sensorId_le F)
  rw [hunit] at hu
  refine ⟨t, u, hsent, hpoll, hresponse, ?_, ?_, hu.unit, hu.image, hu.mode, hu.progress, hu.empty⟩
  · rw [hu.id, BitVec.toNat_ofNat, Nat.mod_eq_of_lt hid]
  · rw [hu.temp, publishedTemp_toInt]

end Sys2Proof.Machine
end
